-- ==== Sys2Proof/Word.lean ====
section
/-! DEFINITION. The word types of the block: every register is an unsigned 32-bit word (00_scope.md section 6, R94). -/

namespace Sys2Proof

/-- A register of the bank (u32). -/
abbrev Word := BitVec 32

/-- A half-word (u16): the low and the high half of a register. -/
abbrev Half := BitVec 16

/-- A u64: an offset argument, a file length. -/
abbrev DWord := BitVec 64

/-- One byte of a buffer or of an operation's word. -/
abbrev Byte := BitVec 8

end Sys2Proof
end

