-- ==== Sys2Proof/Config.lean ====
section
/-! DEFINITION. The names the spec gives the parts of the block, its decided parameters, and its OPEN parameters and free
values as uninterpreted constants (00_scope.md section 5; 92_eei_decisions.md). -/

namespace Sys2Proof

/-- A direction (R6): `read`, the device fills the buffer; `write`, the host fills it. -/
inductive Dir
  | read
  | write
deriving DecidableEq, Repr, Inhabited

/-- An event line (R43, R100, R249): read-complete RC, write-complete WC, host-done HD. -/
inductive Line
  | rc
  | wc
  | hd
deriving DecidableEq, Repr, Inhabited

/-- Class S: host-written storage, offsets 0x00 to 0x24 (R11 to R20, R36). -/
inductive SReg
  | readBufferReady
  | readBufferAddr
  | readBufferOffset
  | readBufferSize
  | writeBufferReady
  | writeBufferAddr
  | writeBufferOffset
  | writeBufferSize
  | readTransferDone
  | writeTransferDone
deriving DecidableEq, Repr, Inhabited

/-- Class D: device status, driven by the device (R21, R22, R25 to R31, R36). -/
inductive DReg
  | readFileLengthHi
  | readFileLength
  | encParams1
  | encParams2
  | rawResolution
  | usecaseMode
  | encParams3
  | encParams4
  | encParams5
deriving DecidableEq, Repr, Inhabited

/-- Class A: acknowledge registers (R23, R24, R32 to R34, R36). -/
inductive AReg
  | readBufferTransferDone
  | writeBufferTransferDone
  | readBufferTransferDoneIntr
  | writeBufferTransferDoneIntr
  | hostDoneIntr
deriving DecidableEq, Repr, Inhabited

/-- One of the 24 slots of the register map (R10), by class. -/
inductive Reg
  | s (r : SReg)
  | d (r : DReg)
  | a (r : AReg)
deriving DecidableEq, Repr, Inhabited

/-- One entry of `ENC_FIELD_TABLE` (R88): the field's name, the word it lies in (0 stands for ENC_PARAMS_1), its low bit, and
its width less one. The width `w` is `widthLess1 + 1`, cut to the bits above `lo`, so that every value of this type is a range
of R80: `1 <= w` and `lo + w <= 32`. -/
structure EncField where
  name       : String
  word       : Fin 5
  lo         : Fin 32
  widthLess1 : Fin 32
deriving DecidableEq, Repr, Inhabited

/-- `ENC_FIELD_TABLE`: exactly 13 entries (R88, D8). -/
abbrev EncFieldTable := Vector EncField 13

namespace Config

/-- `LEN_MAX`, the largest transfer length (00_scope.md section 5, D10). -/
def lenMax : Nat := 4294967295

/-- `ACK_VALUE[line]`, OPEN (D7): the word whose write acknowledges the line's event. Log 5. -/
opaque ackValue : Line → Word

/-- `ENC_FIELD_TABLE`, OPEN (D8): the layout of the 13 encoding-parameter fields, where its ranges are disjoint
(`Machine.encTable`). Log 6. -/
opaque encFieldTable : EncFieldTable

/-- The power-on value of a class S register, which the spec leaves unspecified and forbids to take as zero (R47, R113). Log 2. -/
opaque powerOn : SReg → Word

/-- The word the device drives on a status register at the creation of the block (R21, R47). Log 4. -/
opaque powerOnStatus : DReg → Word

/-- `irq_pending[line]` at the creation of the block, unspecified (R47). Log 3. -/
opaque powerOnPending : Line → Bool

/-- The allocator's answer at the creation of the block, a free input (R9). Log 10. -/
opaque initialAllocator : Option (Word × Nat)

/-- The caller's source at the creation of the block, a free input (R63). Log 10. -/
opaque initialSource : Option (List Byte)

/-- Whether a copy to the caller succeeds at the creation of the block, a free input (R63). Log 10. -/
opaque initialDestinationOk : Bool

/-- The word the `n`-th draw gives a read of an acknowledge register (R115, U4). Log 8. -/
opaque drawWord : Nat → Word

/-- Byte `i` of the buffer whose allocation was draw `n`, before anything is written to it (R9, U14). Log 9. -/
opaque freshByte : Nat → Nat → Byte

/-- Byte `i` of the buffer as a host copy loads or stores it, at draw `n`, while the device owns the buffer (R77, U12). Log 16. -/
opaque raceByte : Nat → Nat → Byte

/-- What a copy to the caller that failed, at draw `n`, left in the caller's destination (R63, U13). Log 17. -/
opaque partialCopy : Nat → List Byte

/-- Byte `i` of a caller's source beyond the bytes the input lists, at draw `n` (R63). Log 28. -/
opaque callerByte : Nat → Nat → Byte

end Config

end Sys2Proof
end

