-- ==== Sys2Proof/Syntax.lean ====
section
/-! DEFINITION. The operations of the block as syntax: one constructor per row of spec/opcode_table.json (R95 to R100). -/

namespace Sys2Proof

/-- An operation of the block, with the operands its encoding carries (30_encoding.md section 3). A read transaction carries no
data, and a command or procedure whose argument is ignored has no argument here. -/
inductive Instr
  /-- CSR_RD_READ_BUFFER_READY (R120), read of the register at offset 0x00. -/
  | csrRdReadBufferReady
  /-- CSR_WR_READ_BUFFER_READY (R121), write of the register at offset 0x00. -/
  | csrWrReadBufferReady (v : Word)
  /-- CSR_RD_READ_BUFFER_ADDR (R122), read of the register at offset 0x04. -/
  | csrRdReadBufferAddr
  /-- CSR_WR_READ_BUFFER_ADDR (R123), write of the register at offset 0x04. -/
  | csrWrReadBufferAddr (v : Word)
  /-- CSR_RD_READ_BUFFER_OFFSET (R124), read of the register at offset 0x08. -/
  | csrRdReadBufferOffset
  /-- CSR_WR_READ_BUFFER_OFFSET (R125), write of the register at offset 0x08. -/
  | csrWrReadBufferOffset (v : Word)
  /-- CSR_RD_READ_BUFFER_SIZE (R126), read of the register at offset 0x0C. -/
  | csrRdReadBufferSize
  /-- CSR_WR_READ_BUFFER_SIZE (R127), write of the register at offset 0x0C. -/
  | csrWrReadBufferSize (v : Word)
  /-- CSR_RD_WRITE_BUFFER_READY (R128), read of the register at offset 0x10. -/
  | csrRdWriteBufferReady
  /-- CSR_WR_WRITE_BUFFER_READY (R129), write of the register at offset 0x10. -/
  | csrWrWriteBufferReady (v : Word)
  /-- CSR_RD_WRITE_BUFFER_ADDR (R130), read of the register at offset 0x14. -/
  | csrRdWriteBufferAddr
  /-- CSR_WR_WRITE_BUFFER_ADDR (R131), write of the register at offset 0x14. -/
  | csrWrWriteBufferAddr (v : Word)
  /-- CSR_RD_WRITE_BUFFER_OFFSET (R132), read of the register at offset 0x18. -/
  | csrRdWriteBufferOffset
  /-- CSR_WR_WRITE_BUFFER_OFFSET (R133), write of the register at offset 0x18. -/
  | csrWrWriteBufferOffset (v : Word)
  /-- CSR_RD_WRITE_BUFFER_SIZE (R134), read of the register at offset 0x1C. -/
  | csrRdWriteBufferSize
  /-- CSR_WR_WRITE_BUFFER_SIZE (R135), write of the register at offset 0x1C. -/
  | csrWrWriteBufferSize (v : Word)
  /-- CSR_RD_READ_TRANSFER_DONE (R136), read of the register at offset 0x20. -/
  | csrRdReadTransferDone
  /-- CSR_WR_READ_TRANSFER_DONE (R137), write of the register at offset 0x20. -/
  | csrWrReadTransferDone (v : Word)
  /-- CSR_RD_WRITE_TRANSFER_DONE (R138), read of the register at offset 0x24. -/
  | csrRdWriteTransferDone
  /-- CSR_WR_WRITE_TRANSFER_DONE (R139), write of the register at offset 0x24. -/
  | csrWrWriteTransferDone (v : Word)
  /-- CSR_RD_READ_FILE_LENGTH_HI (R140), read of the register at offset 0x3C. -/
  | csrRdReadFileLengthHi
  /-- CSR_WR_READ_FILE_LENGTH_HI (R141), write of the register at offset 0x3C. -/
  | csrWrReadFileLengthHi (v : Word)
  /-- CSR_RD_READ_FILE_LENGTH (R142), read of the register at offset 0x40. -/
  | csrRdReadFileLength
  /-- CSR_WR_READ_FILE_LENGTH (R143), write of the register at offset 0x40. -/
  | csrWrReadFileLength (v : Word)
  /-- CSR_RD_READ_BUFFER_TRANSFER_DONE (R144), read of the register at offset 0x44. -/
  | csrRdReadBufferTransferDone
  /-- CSR_WR_READ_BUFFER_TRANSFER_DONE (R145), write of the register at offset 0x44. -/
  | csrWrReadBufferTransferDone (v : Word)
  /-- CSR_RD_WRITE_BUFFER_TRANSFER_DONE (R146), read of the register at offset 0x48. -/
  | csrRdWriteBufferTransferDone
  /-- CSR_WR_WRITE_BUFFER_TRANSFER_DONE (R147), write of the register at offset 0x48. -/
  | csrWrWriteBufferTransferDone (v : Word)
  /-- CSR_RD_ENC_PARAMS_1 (R148), read of the register at offset 0x4C. -/
  | csrRdEncParams1
  /-- CSR_WR_ENC_PARAMS_1 (R149), write of the register at offset 0x4C. -/
  | csrWrEncParams1 (v : Word)
  /-- CSR_RD_ENC_PARAMS_2 (R150), read of the register at offset 0x50. -/
  | csrRdEncParams2
  /-- CSR_WR_ENC_PARAMS_2 (R151), write of the register at offset 0x50. -/
  | csrWrEncParams2 (v : Word)
  /-- CSR_RD_RAW_RESOLUTION (R152), read of the register at offset 0x54. -/
  | csrRdRawResolution
  /-- CSR_WR_RAW_RESOLUTION (R153), write of the register at offset 0x54. -/
  | csrWrRawResolution (v : Word)
  /-- CSR_RD_USECASE_MODE (R154), read of the register at offset 0x58. -/
  | csrRdUsecaseMode
  /-- CSR_WR_USECASE_MODE (R155), write of the register at offset 0x58. -/
  | csrWrUsecaseMode (v : Word)
  /-- CSR_RD_ENC_PARAMS_3 (R156), read of the register at offset 0x5C. -/
  | csrRdEncParams3
  /-- CSR_WR_ENC_PARAMS_3 (R157), write of the register at offset 0x5C. -/
  | csrWrEncParams3 (v : Word)
  /-- CSR_RD_ENC_PARAMS_4 (R158), read of the register at offset 0x60. -/
  | csrRdEncParams4
  /-- CSR_WR_ENC_PARAMS_4 (R159), write of the register at offset 0x60. -/
  | csrWrEncParams4 (v : Word)
  /-- CSR_RD_ENC_PARAMS_5 (R160), read of the register at offset 0x64. -/
  | csrRdEncParams5
  /-- CSR_WR_ENC_PARAMS_5 (R161), write of the register at offset 0x64. -/
  | csrWrEncParams5 (v : Word)
  /-- CSR_RD_READ_BUFFER_TRANSFER_DONE_INTR (R162), read of the register at offset 0x68. -/
  | csrRdReadBufferTransferDoneIntr
  /-- CSR_WR_READ_BUFFER_TRANSFER_DONE_INTR (R163), write of the register at offset 0x68. -/
  | csrWrReadBufferTransferDoneIntr (v : Word)
  /-- CSR_RD_WRITE_BUFFER_TRANSFER_DONE_INTR (R164), read of the register at offset 0x6C. -/
  | csrRdWriteBufferTransferDoneIntr
  /-- CSR_WR_WRITE_BUFFER_TRANSFER_DONE_INTR (R165), write of the register at offset 0x6C. -/
  | csrWrWriteBufferTransferDoneIntr (v : Word)
  /-- CSR_RD_HOST_DONE_INTR (R166), read of the register at offset 0x70. -/
  | csrRdHostDoneIntr
  /-- CSR_WR_HOST_DONE_INTR (R167), write of the register at offset 0x70. -/
  | csrWrHostDoneIntr (v : Word)
  /-- GET_FILE_LENGTH (R200), command code 0x00. -/
  | getFileLength
  /-- GET_ENC_PARAMS (R201), command code 0x01. -/
  | getEncParams
  /-- GET_RESOLUTION (R202), command code 0x02. -/
  | getResolution
  /-- GET_MODE (R203), command code 0x03. -/
  | getMode
  /-- GET_FPS (R204), command code 0x04. -/
  | getFps
  /-- GET_FORMAT (R205), command code 0x05. -/
  | getFormat
  /-- SET_READ_OFFSET (R206), command code 0x06. -/
  | setReadOffset (o : DWord)
  /-- SET_WRITE_OFFSET (R207), command code 0x07. -/
  | setWriteOffset (o : DWord)
  /-- SET_READ_TRANSFER_DONE (R208), command code 0x08. -/
  | setReadTransferDone
  /-- CLEAR_READ_TRANSFER_DONE (R209), command code 0x09. -/
  | clearReadTransferDone
  /-- SET_WRITE_TRANSFER_DONE (R210), command code 0x0A. -/
  | setWriteTransferDone
  /-- CLEAR_WRITE_TRANSFER_DONE (R211), command code 0x0B. -/
  | clearWriteTransferDone
  /-- BEGIN_TRANSFER.d (R170), selector 0x10 with the direction in its low bit. -/
  | beginTransfer (d : Dir) (len : DWord)
  /-- MARK_READY.d (R171), selector 0x12 with the direction in its low bit. -/
  | markReady (d : Dir)
  /-- COMPLETE_AND_RELEASE.d (R172), selector 0x14 with the direction in its low bit. -/
  | completeAndRelease (d : Dir)
  /-- WAIT.d (R190), selector 0x16 with the direction in its low bit. -/
  | wait (d : Dir)
  /-- SIGNAL.d (R191), selector 0x18 with the direction in its low bit. -/
  | signal (d : Dir)
  /-- ABORT.d (R174), selector 0x1A with the direction in its low bit. -/
  | abort (d : Dir)
  /-- RESET_ALL (R214), selector 0x20. -/
  | resetAll
  /-- READ (R230), selector 0x30. -/
  | read (n : DWord)
  /-- WRITE (R231), selector 0x31. -/
  | write (n : DWord)
  /-- SEEK (R232), selector 0x32. -/
  | seek (o : DWord)
  /-- EV_READ_COMPLETE (R250), event line 0. -/
  | evReadComplete
  /-- EV_WRITE_COMPLETE (R251), event line 1. -/
  | evWriteComplete
  /-- EV_HOST_DONE (R252), event line 2. -/
  | evHostDone
deriving DecidableEq, Repr, Inhabited

/-- The four surfaces at which an operation is issued, one per level of R95: a register transaction (X), a control command (C),
a procedure call (P), an event dispatch (E). -/
inductive Surface
  | csr
  | command
  | procedure
  | event
deriving DecidableEq, Repr, Inhabited

end Sys2Proof
end

