-- ==== Sys2Proof/WellFormed.lean ====
section
/-! DEFINITION. What makes an operation well formed: its length lies in the operand's domain (R170, R230, D10). Every other
operand is a bit field that admits all its values. -/

namespace Sys2Proof

/-- The integer a bulk operation's 64-bit argument stands for: two's complement, since `N` "may be zero or negative at the call"
(R230). Log 13. -/
def bulkLength (n : DWord) : Int := n.toInt

/-- The operand domain of each operation (D10): `len <= LEN_MAX` for BEGIN_TRANSFER, `N <= LEN_MAX` for READ and WRITE. -/
def Instr.wf : Instr → Bool
  | .csrRdReadBufferReady => true
  | .csrWrReadBufferReady _ => true
  | .csrRdReadBufferAddr => true
  | .csrWrReadBufferAddr _ => true
  | .csrRdReadBufferOffset => true
  | .csrWrReadBufferOffset _ => true
  | .csrRdReadBufferSize => true
  | .csrWrReadBufferSize _ => true
  | .csrRdWriteBufferReady => true
  | .csrWrWriteBufferReady _ => true
  | .csrRdWriteBufferAddr => true
  | .csrWrWriteBufferAddr _ => true
  | .csrRdWriteBufferOffset => true
  | .csrWrWriteBufferOffset _ => true
  | .csrRdWriteBufferSize => true
  | .csrWrWriteBufferSize _ => true
  | .csrRdReadTransferDone => true
  | .csrWrReadTransferDone _ => true
  | .csrRdWriteTransferDone => true
  | .csrWrWriteTransferDone _ => true
  | .csrRdReadFileLengthHi => true
  | .csrWrReadFileLengthHi _ => true
  | .csrRdReadFileLength => true
  | .csrWrReadFileLength _ => true
  | .csrRdReadBufferTransferDone => true
  | .csrWrReadBufferTransferDone _ => true
  | .csrRdWriteBufferTransferDone => true
  | .csrWrWriteBufferTransferDone _ => true
  | .csrRdEncParams1 => true
  | .csrWrEncParams1 _ => true
  | .csrRdEncParams2 => true
  | .csrWrEncParams2 _ => true
  | .csrRdRawResolution => true
  | .csrWrRawResolution _ => true
  | .csrRdUsecaseMode => true
  | .csrWrUsecaseMode _ => true
  | .csrRdEncParams3 => true
  | .csrWrEncParams3 _ => true
  | .csrRdEncParams4 => true
  | .csrWrEncParams4 _ => true
  | .csrRdEncParams5 => true
  | .csrWrEncParams5 _ => true
  | .csrRdReadBufferTransferDoneIntr => true
  | .csrWrReadBufferTransferDoneIntr _ => true
  | .csrRdWriteBufferTransferDoneIntr => true
  | .csrWrWriteBufferTransferDoneIntr _ => true
  | .csrRdHostDoneIntr => true
  | .csrWrHostDoneIntr _ => true
  | .getFileLength => true
  | .getEncParams => true
  | .getResolution => true
  | .getMode => true
  | .getFps => true
  | .getFormat => true
  | .setReadOffset _ => true
  | .setWriteOffset _ => true
  | .setReadTransferDone => true
  | .clearReadTransferDone => true
  | .setWriteTransferDone => true
  | .clearWriteTransferDone => true
  | .beginTransfer _ len => decide (len.toNat ≤ Config.lenMax)
  | .markReady _ => true
  | .completeAndRelease _ => true
  | .wait _ => true
  | .signal _ => true
  | .abort _ => true
  | .resetAll => true
  | .read n => decide (bulkLength n ≤ Config.lenMax)
  | .write n => decide (bulkLength n ≤ Config.lenMax)
  | .seek _ => true
  | .evReadComplete => true
  | .evWriteComplete => true
  | .evHostDone => true

end Sys2Proof
end

