-- ==== Sys2Proof/Decode.lean ====
section
/-! DEFINITION. Decoding an issued operation from its bytes, total and rejecting by name, and the encoder written from the same
tables (30_encoding.md R96 to R104, R108). The bits of an operation are numbered as the tables number them; the bytes are taken
lowest bits first (log 22). -/

namespace Sys2Proof

/-- Why bytes name no operation. -/
inductive DecodeError
  /-- The bytes have the wrong number for the surface's format (R96, R98, R99, R100), or a register access is not 32 bits wide
  (R65, R101, U2). -/
  | badWidth
  /-- The register offset is not a multiple of 4 (R65, R101, U2). -/
  | misaligned
  /-- The register offset names no slot of the table (R35, R101, R112, U1). -/
  | unmappedOffset
  /-- The command code is not 0x00 to 0x0B: the command surface answers UnsupportedOperation (R98, R103, R213). -/
  | unknownCommand
  /-- The selector is outside the table of R99 (R104). -/
  | unknownSelector
  /-- The event line is 3, or bits above the two of Format E are set (R100, R104; log 23). -/
  | noSuchLine
deriving DecidableEq, Repr

/-- The byte offset of a slot (R11 to R34; the table of 10_state.md section 2). -/
def Reg.offset : Reg → Nat
  | .s .readBufferReady => 0x00
  | .s .readBufferAddr => 0x04
  | .s .readBufferOffset => 0x08
  | .s .readBufferSize => 0x0C
  | .s .writeBufferReady => 0x10
  | .s .writeBufferAddr => 0x14
  | .s .writeBufferOffset => 0x18
  | .s .writeBufferSize => 0x1C
  | .s .readTransferDone => 0x20
  | .s .writeTransferDone => 0x24
  | .d .readFileLengthHi => 0x3C
  | .d .readFileLength => 0x40
  | .a .readBufferTransferDone => 0x44
  | .a .writeBufferTransferDone => 0x48
  | .d .encParams1 => 0x4C
  | .d .encParams2 => 0x50
  | .d .rawResolution => 0x54
  | .d .usecaseMode => 0x58
  | .d .encParams3 => 0x5C
  | .d .encParams4 => 0x60
  | .d .encParams5 => 0x64
  | .a .readBufferTransferDoneIntr => 0x68
  | .a .writeBufferTransferDoneIntr => 0x6C
  | .a .hostDoneIntr => 0x70

/-- The slot at a word index `off[6:2]` (R97). -/
def regAtIndex : Nat → Option Reg
  | 0 => some (.s .readBufferReady)
  | 1 => some (.s .readBufferAddr)
  | 2 => some (.s .readBufferOffset)
  | 3 => some (.s .readBufferSize)
  | 4 => some (.s .writeBufferReady)
  | 5 => some (.s .writeBufferAddr)
  | 6 => some (.s .writeBufferOffset)
  | 7 => some (.s .writeBufferSize)
  | 8 => some (.s .readTransferDone)
  | 9 => some (.s .writeTransferDone)
  | 15 => some (.d .readFileLengthHi)
  | 16 => some (.d .readFileLength)
  | 17 => some (.a .readBufferTransferDone)
  | 18 => some (.a .writeBufferTransferDone)
  | 19 => some (.d .encParams1)
  | 20 => some (.d .encParams2)
  | 21 => some (.d .rawResolution)
  | 22 => some (.d .usecaseMode)
  | 23 => some (.d .encParams3)
  | 24 => some (.d .encParams4)
  | 25 => some (.d .encParams5)
  | 26 => some (.a .readBufferTransferDoneIntr)
  | 27 => some (.a .writeBufferTransferDoneIntr)
  | 28 => some (.a .hostDoneIntr)
  | _ => none

/-- The CSR decoder's slot decode of a byte offset and an access width in bits (R65, R101, R112): no default slot, no alias. -/
def decodeSlot (off width : Nat) : Except DecodeError Reg :=
  if width ≠ 32 then .error .badWidth
  else if off % 4 ≠ 0 then .error .misaligned
  else match regAtIndex (off / 4) with
    | some r => .ok r
    | none => .error .unmappedOffset

/-- The read transaction of a slot (R110). -/
def csrRd : Reg → Instr
  | .s .readBufferReady => .csrRdReadBufferReady
  | .s .readBufferAddr => .csrRdReadBufferAddr
  | .s .readBufferOffset => .csrRdReadBufferOffset
  | .s .readBufferSize => .csrRdReadBufferSize
  | .s .writeBufferReady => .csrRdWriteBufferReady
  | .s .writeBufferAddr => .csrRdWriteBufferAddr
  | .s .writeBufferOffset => .csrRdWriteBufferOffset
  | .s .writeBufferSize => .csrRdWriteBufferSize
  | .s .readTransferDone => .csrRdReadTransferDone
  | .s .writeTransferDone => .csrRdWriteTransferDone
  | .d .readFileLengthHi => .csrRdReadFileLengthHi
  | .d .readFileLength => .csrRdReadFileLength
  | .a .readBufferTransferDone => .csrRdReadBufferTransferDone
  | .a .writeBufferTransferDone => .csrRdWriteBufferTransferDone
  | .d .encParams1 => .csrRdEncParams1
  | .d .encParams2 => .csrRdEncParams2
  | .d .rawResolution => .csrRdRawResolution
  | .d .usecaseMode => .csrRdUsecaseMode
  | .d .encParams3 => .csrRdEncParams3
  | .d .encParams4 => .csrRdEncParams4
  | .d .encParams5 => .csrRdEncParams5
  | .a .readBufferTransferDoneIntr => .csrRdReadBufferTransferDoneIntr
  | .a .writeBufferTransferDoneIntr => .csrRdWriteBufferTransferDoneIntr
  | .a .hostDoneIntr => .csrRdHostDoneIntr

/-- The write transaction of a slot (R111). -/
def csrWr (r : Reg) (v : Word) : Instr :=
  match r with
  | .s .readBufferReady => .csrWrReadBufferReady v
  | .s .readBufferAddr => .csrWrReadBufferAddr v
  | .s .readBufferOffset => .csrWrReadBufferOffset v
  | .s .readBufferSize => .csrWrReadBufferSize v
  | .s .writeBufferReady => .csrWrWriteBufferReady v
  | .s .writeBufferAddr => .csrWrWriteBufferAddr v
  | .s .writeBufferOffset => .csrWrWriteBufferOffset v
  | .s .writeBufferSize => .csrWrWriteBufferSize v
  | .s .readTransferDone => .csrWrReadTransferDone v
  | .s .writeTransferDone => .csrWrWriteTransferDone v
  | .d .readFileLengthHi => .csrWrReadFileLengthHi v
  | .d .readFileLength => .csrWrReadFileLength v
  | .a .readBufferTransferDone => .csrWrReadBufferTransferDone v
  | .a .writeBufferTransferDone => .csrWrWriteBufferTransferDone v
  | .d .encParams1 => .csrWrEncParams1 v
  | .d .encParams2 => .csrWrEncParams2 v
  | .d .rawResolution => .csrWrRawResolution v
  | .d .usecaseMode => .csrWrUsecaseMode v
  | .d .encParams3 => .csrWrEncParams3 v
  | .d .encParams4 => .csrWrEncParams4 v
  | .d .encParams5 => .csrWrEncParams5 v
  | .a .readBufferTransferDoneIntr => .csrWrReadBufferTransferDoneIntr v
  | .a .writeBufferTransferDoneIntr => .csrWrWriteBufferTransferDoneIntr v
  | .a .hostDoneIntr => .csrWrHostDoneIntr v

/-- Four bytes, lowest first, as a word. -/
def joinWord (b0 b1 b2 b3 : Byte) : Word := b3 ++ b2 ++ b1 ++ b0

/-- Eight bytes, lowest first, as a 64-bit value. -/
def joinDWord (b0 b1 b2 b3 b4 b5 b6 b7 : Byte) : DWord := b7 ++ b6 ++ b5 ++ b4 ++ b3 ++ b2 ++ b1 ++ b0

/-- Byte `i` of a value, byte 0 its lowest 8 bits. -/
def byteOf {w : Nat} (v : BitVec w) (i : Nat) : Byte := v.extractLsb' (8 * i) 8

/-- Format X (R96): bits [31:0] the data, then the byte `(w << 7) | off`. -/
def decodeCsr : List Byte → Except DecodeError Instr
  | [b0, b1, b2, b3, h] =>
    match decodeSlot (h.toNat % 128) 32 with
    | .error e => .error e
    | .ok r => if h.toNat < 128 then .ok (csrRd r) else .ok (csrWr r (joinWord b0 b1 b2 b3))
  | _ => .error .badWidth

/-- The command of a code (R98). -/
def commandOf (code : Nat) (arg : DWord) : Except DecodeError Instr :=
  match code with
  | 0x00 => .ok .getFileLength
  | 0x01 => .ok .getEncParams
  | 0x02 => .ok .getResolution
  | 0x03 => .ok .getMode
  | 0x04 => .ok .getFps
  | 0x05 => .ok .getFormat
  | 0x06 => .ok (.setReadOffset arg)
  | 0x07 => .ok (.setWriteOffset arg)
  | 0x08 => .ok .setReadTransferDone
  | 0x09 => .ok .clearReadTransferDone
  | 0x0A => .ok .setWriteTransferDone
  | 0x0B => .ok .clearWriteTransferDone
  | _ => .error .unknownCommand

/-- Format C (R98): bits [63:0] the argument, then the code. -/
def decodeCommand : List Byte → Except DecodeError Instr
  | [a0, a1, a2, a3, a4, a5, a6, a7, code] => commandOf code.toNat (joinDWord a0 a1 a2 a3 a4 a5 a6 a7)
  | _ => .error .badWidth

/-- The procedure of a selector (R99); bit 64 is the direction of a directional one. -/
def procedureOf (sel : Nat) (arg : DWord) : Except DecodeError Instr :=
  match sel with
  | 0x10 => .ok (.beginTransfer .read arg)
  | 0x11 => .ok (.beginTransfer .write arg)
  | 0x12 => .ok (.markReady .read)
  | 0x13 => .ok (.markReady .write)
  | 0x14 => .ok (.completeAndRelease .read)
  | 0x15 => .ok (.completeAndRelease .write)
  | 0x16 => .ok (.wait .read)
  | 0x17 => .ok (.wait .write)
  | 0x18 => .ok (.signal .read)
  | 0x19 => .ok (.signal .write)
  | 0x1A => .ok (.abort .read)
  | 0x1B => .ok (.abort .write)
  | 0x20 => .ok .resetAll
  | 0x30 => .ok (.read arg)
  | 0x31 => .ok (.write arg)
  | 0x32 => .ok (.seek arg)
  | _ => .error .unknownSelector

/-- Format P (R99): bits [63:0] the argument, then the selector. -/
def decodeProcedure : List Byte → Except DecodeError Instr
  | [a0, a1, a2, a3, a4, a5, a6, a7, sel] => procedureOf sel.toNat (joinDWord a0 a1 a2 a3 a4 a5 a6 a7)
  | _ => .error .badWidth

/-- Format E (R100): two bits, the line. -/
def decodeEvent : List Byte → Except DecodeError Instr
  | [b] =>
    match b.toNat with
    | 0 => .ok .evReadComplete
    | 1 => .ok .evWriteComplete
    | 2 => .ok .evHostDone
    | _ => .error .noSuchLine
  | _ => .error .badWidth

/-- The decoding procedure of R108, at the surface where the operation is issued. A Format P word is not accepted at the command
surface: there its selector is an unknown code (R99). -/
def decode : Surface → List Byte → Except DecodeError Instr
  | .csr, bytes => decodeCsr bytes
  | .command, bytes => decodeCommand bytes
  | .procedure, bytes => decodeProcedure bytes
  | .event, bytes => decodeEvent bytes

/-- The surface at which each operation is issued (R95). -/
def Instr.surface : Instr → Surface
  | .csrRdReadBufferReady => .csr
  | .csrWrReadBufferReady _ => .csr
  | .csrRdReadBufferAddr => .csr
  | .csrWrReadBufferAddr _ => .csr
  | .csrRdReadBufferOffset => .csr
  | .csrWrReadBufferOffset _ => .csr
  | .csrRdReadBufferSize => .csr
  | .csrWrReadBufferSize _ => .csr
  | .csrRdWriteBufferReady => .csr
  | .csrWrWriteBufferReady _ => .csr
  | .csrRdWriteBufferAddr => .csr
  | .csrWrWriteBufferAddr _ => .csr
  | .csrRdWriteBufferOffset => .csr
  | .csrWrWriteBufferOffset _ => .csr
  | .csrRdWriteBufferSize => .csr
  | .csrWrWriteBufferSize _ => .csr
  | .csrRdReadTransferDone => .csr
  | .csrWrReadTransferDone _ => .csr
  | .csrRdWriteTransferDone => .csr
  | .csrWrWriteTransferDone _ => .csr
  | .csrRdReadFileLengthHi => .csr
  | .csrWrReadFileLengthHi _ => .csr
  | .csrRdReadFileLength => .csr
  | .csrWrReadFileLength _ => .csr
  | .csrRdReadBufferTransferDone => .csr
  | .csrWrReadBufferTransferDone _ => .csr
  | .csrRdWriteBufferTransferDone => .csr
  | .csrWrWriteBufferTransferDone _ => .csr
  | .csrRdEncParams1 => .csr
  | .csrWrEncParams1 _ => .csr
  | .csrRdEncParams2 => .csr
  | .csrWrEncParams2 _ => .csr
  | .csrRdRawResolution => .csr
  | .csrWrRawResolution _ => .csr
  | .csrRdUsecaseMode => .csr
  | .csrWrUsecaseMode _ => .csr
  | .csrRdEncParams3 => .csr
  | .csrWrEncParams3 _ => .csr
  | .csrRdEncParams4 => .csr
  | .csrWrEncParams4 _ => .csr
  | .csrRdEncParams5 => .csr
  | .csrWrEncParams5 _ => .csr
  | .csrRdReadBufferTransferDoneIntr => .csr
  | .csrWrReadBufferTransferDoneIntr _ => .csr
  | .csrRdWriteBufferTransferDoneIntr => .csr
  | .csrWrWriteBufferTransferDoneIntr _ => .csr
  | .csrRdHostDoneIntr => .csr
  | .csrWrHostDoneIntr _ => .csr
  | .getFileLength => .command
  | .getEncParams => .command
  | .getResolution => .command
  | .getMode => .command
  | .getFps => .command
  | .getFormat => .command
  | .setReadOffset _ => .command
  | .setWriteOffset _ => .command
  | .setReadTransferDone => .command
  | .clearReadTransferDone => .command
  | .setWriteTransferDone => .command
  | .clearWriteTransferDone => .command
  | .beginTransfer _ _ => .procedure
  | .markReady _ => .procedure
  | .completeAndRelease _ => .procedure
  | .wait _ => .procedure
  | .signal _ => .procedure
  | .abort _ => .procedure
  | .resetAll => .procedure
  | .read _ => .procedure
  | .write _ => .procedure
  | .seek _ => .procedure
  | .evReadComplete => .event
  | .evWriteComplete => .event
  | .evHostDone => .event

/-- The direction's bit in a selector (R99): 0 is R, 1 is W. -/
def Dir.bit : Dir → Byte
  | .read => 0
  | .write => 1

/-- The bytes of a read transaction: the ignored data are written as zeros (95_test_vectors.md, conventions; log 31). -/
def encodeRd (r : Reg) : List Byte := [0, 0, 0, 0, BitVec.ofNat 8 r.offset]

/-- The bytes of a write transaction. -/
def encodeWr (r : Reg) (v : Word) : List Byte :=
  [byteOf v 0, byteOf v 1, byteOf v 2, byteOf v 3, BitVec.ofNat 8 (128 + r.offset)]

/-- The bytes of a Format C or P word. -/
def encodeArg (sel : Byte) (arg : DWord) : List Byte :=
  [byteOf arg 0, byteOf arg 1, byteOf arg 2, byteOf arg 3, byteOf arg 4, byteOf arg 5, byteOf arg 6, byteOf arg 7, sel]

/-- The bytes of an operation (R96 to R100); an ignored argument is written as zero. -/
def encode : Instr → List Byte
  | .csrRdReadBufferReady => encodeRd (.s .readBufferReady)
  | .csrWrReadBufferReady v => encodeWr (.s .readBufferReady) v
  | .csrRdReadBufferAddr => encodeRd (.s .readBufferAddr)
  | .csrWrReadBufferAddr v => encodeWr (.s .readBufferAddr) v
  | .csrRdReadBufferOffset => encodeRd (.s .readBufferOffset)
  | .csrWrReadBufferOffset v => encodeWr (.s .readBufferOffset) v
  | .csrRdReadBufferSize => encodeRd (.s .readBufferSize)
  | .csrWrReadBufferSize v => encodeWr (.s .readBufferSize) v
  | .csrRdWriteBufferReady => encodeRd (.s .writeBufferReady)
  | .csrWrWriteBufferReady v => encodeWr (.s .writeBufferReady) v
  | .csrRdWriteBufferAddr => encodeRd (.s .writeBufferAddr)
  | .csrWrWriteBufferAddr v => encodeWr (.s .writeBufferAddr) v
  | .csrRdWriteBufferOffset => encodeRd (.s .writeBufferOffset)
  | .csrWrWriteBufferOffset v => encodeWr (.s .writeBufferOffset) v
  | .csrRdWriteBufferSize => encodeRd (.s .writeBufferSize)
  | .csrWrWriteBufferSize v => encodeWr (.s .writeBufferSize) v
  | .csrRdReadTransferDone => encodeRd (.s .readTransferDone)
  | .csrWrReadTransferDone v => encodeWr (.s .readTransferDone) v
  | .csrRdWriteTransferDone => encodeRd (.s .writeTransferDone)
  | .csrWrWriteTransferDone v => encodeWr (.s .writeTransferDone) v
  | .csrRdReadFileLengthHi => encodeRd (.d .readFileLengthHi)
  | .csrWrReadFileLengthHi v => encodeWr (.d .readFileLengthHi) v
  | .csrRdReadFileLength => encodeRd (.d .readFileLength)
  | .csrWrReadFileLength v => encodeWr (.d .readFileLength) v
  | .csrRdReadBufferTransferDone => encodeRd (.a .readBufferTransferDone)
  | .csrWrReadBufferTransferDone v => encodeWr (.a .readBufferTransferDone) v
  | .csrRdWriteBufferTransferDone => encodeRd (.a .writeBufferTransferDone)
  | .csrWrWriteBufferTransferDone v => encodeWr (.a .writeBufferTransferDone) v
  | .csrRdEncParams1 => encodeRd (.d .encParams1)
  | .csrWrEncParams1 v => encodeWr (.d .encParams1) v
  | .csrRdEncParams2 => encodeRd (.d .encParams2)
  | .csrWrEncParams2 v => encodeWr (.d .encParams2) v
  | .csrRdRawResolution => encodeRd (.d .rawResolution)
  | .csrWrRawResolution v => encodeWr (.d .rawResolution) v
  | .csrRdUsecaseMode => encodeRd (.d .usecaseMode)
  | .csrWrUsecaseMode v => encodeWr (.d .usecaseMode) v
  | .csrRdEncParams3 => encodeRd (.d .encParams3)
  | .csrWrEncParams3 v => encodeWr (.d .encParams3) v
  | .csrRdEncParams4 => encodeRd (.d .encParams4)
  | .csrWrEncParams4 v => encodeWr (.d .encParams4) v
  | .csrRdEncParams5 => encodeRd (.d .encParams5)
  | .csrWrEncParams5 v => encodeWr (.d .encParams5) v
  | .csrRdReadBufferTransferDoneIntr => encodeRd (.a .readBufferTransferDoneIntr)
  | .csrWrReadBufferTransferDoneIntr v => encodeWr (.a .readBufferTransferDoneIntr) v
  | .csrRdWriteBufferTransferDoneIntr => encodeRd (.a .writeBufferTransferDoneIntr)
  | .csrWrWriteBufferTransferDoneIntr v => encodeWr (.a .writeBufferTransferDoneIntr) v
  | .csrRdHostDoneIntr => encodeRd (.a .hostDoneIntr)
  | .csrWrHostDoneIntr v => encodeWr (.a .hostDoneIntr) v
  | .getFileLength => encodeArg 0x00 0
  | .getEncParams => encodeArg 0x01 0
  | .getResolution => encodeArg 0x02 0
  | .getMode => encodeArg 0x03 0
  | .getFps => encodeArg 0x04 0
  | .getFormat => encodeArg 0x05 0
  | .setReadOffset o => encodeArg 0x06 o
  | .setWriteOffset o => encodeArg 0x07 o
  | .setReadTransferDone => encodeArg 0x08 0
  | .clearReadTransferDone => encodeArg 0x09 0
  | .setWriteTransferDone => encodeArg 0x0A 0
  | .clearWriteTransferDone => encodeArg 0x0B 0
  | .beginTransfer d len => encodeArg (0x10 + d.bit) len
  | .markReady d => encodeArg (0x12 + d.bit) 0
  | .completeAndRelease d => encodeArg (0x14 + d.bit) 0
  | .wait d => encodeArg (0x16 + d.bit) 0
  | .signal d => encodeArg (0x18 + d.bit) 0
  | .abort d => encodeArg (0x1A + d.bit) 0
  | .resetAll => encodeArg 0x20 0
  | .read n => encodeArg 0x30 n
  | .write n => encodeArg 0x31 n
  | .seek o => encodeArg 0x32 o
  | .evReadComplete => [0]
  | .evWriteComplete => [1]
  | .evHostDone => [2]

/-- The bytes of an operation whose bits are `w`, `n` bytes, lowest bits first. -/
def bytesOf (n w : Nat) : List Byte := (List.range n).map fun i => BitVec.ofNat 8 (w / 256 ^ i)

/-- The surface an operation of `nbits` bits with bits `w` belongs to: Format X has 40 bits, Format E one byte, and of the 72-bit
words those whose selector is in R99's table are procedures, all others commands (R96 to R100). -/
def surfaceOf (nbits w : Nat) : Surface :=
  if nbits ≤ 8 then .event
  else if nbits ≤ 40 then .csr
  else match procedureOf (w / 2 ^ 64 % 256) 0 with
    | .ok _ => .procedure
    | .error _ => .command

/-- The length in bytes of the surface's format. -/
def formatBytes : Surface → Nat
  | .csr => 5
  | .command => 9
  | .procedure => 9
  | .event => 1

/-- The bytes of the operation whose bits are `w mod 2^nbits`, all bits above `nbits` zero. -/
def tableBytes (nbits w : Nat) : List Byte :=
  bytesOf (formatBytes (surfaceOf nbits (w % 2 ^ nbits))) (w % 2 ^ nbits)

/-- The operation the decoder reads from an opcode-table word: bit 0 of `w` is bit 0 of the table's numbering. -/
def decodeTableWord (nbits w : Nat) : Option Instr :=
  match decode (surfaceOf nbits (w % 2 ^ nbits)) (tableBytes nbits w) with
  | .ok i => some i
  | .error _ => none

end Sys2Proof
end

