-- ==== Sys2Proof/Machine/State.lean ====
section
/-! DEFINITION. The state of the block and of the agents around it, as plain data, and its value at the creation of the block
(10_state.md; 00_scope.md R4 to R9; 70_reset_and_hazards.md R280). INVENTORY.md lists every field with its rule. -/

namespace Sys2Proof.Machine

/-- The class S registers, one home each (R11 to R20). -/
structure Csr where
  readBufferReady   : Word
  readBufferAddr    : Word
  readBufferOffset  : Word
  readBufferSize    : Word
  writeBufferReady  : Word
  writeBufferAddr   : Word
  writeBufferOffset : Word
  writeBufferSize   : Word
  readTransferDone  : Word
  writeTransferDone : Word
deriving DecidableEq, Repr, Inhabited

/-- The words the device drives at this moment on the class D registers (R21, R22, R25 to R31, R114). -/
structure Status where
  readFileLengthHi : Word
  readFileLength   : Word
  encParams1       : Word
  encParams2       : Word
  rawResolution    : Word
  usecaseMode      : Word
  encParams3       : Word
  encParams4       : Word
  encParams5       : Word
deriving DecidableEq, Repr, Inhabited

/-- One value per direction: the two directions are independent resource domains (R6). -/
structure PerDir (α : Type) where
  r : α
  w : α
deriving DecidableEq, Repr, Inhabited

/-- One value per event line (R43). -/
structure PerLine (α : Type) where
  rc : α
  wc : α
  hd : α
deriving DecidableEq, Repr, Inhabited

/-- The slot's lifecycle state (R40). The source's `Completed` is the released handle; the slot is then `unallocated` (D18). -/
inductive Slot
  | unallocated
  | published
  | awaitingCompletion
deriving DecidableEq, Repr, Inhabited

/-- The completion gate's binary state (R39). -/
inductive Gate
  | pending
  | signaled
deriving DecidableEq, Repr, Inhabited

/-- Bytes by address: strictly rising addresses, no repeats (`Memory.wf`). An address that is not listed has no written value. -/
abbrev Memory := List Host.Cell

/-- A transfer buffer (R41): its length, its two addresses, and the bytes written to it, by host-visible address. `serial` is the
draw that allocated it: a byte nothing has written is `Config.freshByte serial i` (R9, U14; log 9). -/
structure Buffer where
  len      : Nat
  devAddr  : Word
  hostAddr : Nat
  serial   : Nat
  content  : Memory
deriving DecidableEq, Repr, Inhabited

/-- The errors an operation returns (R240 to R246). They are values, not traps. -/
inductive Err
  | invalidArgument
  | allocationFailed
  | transferAlreadyInFlight
  | copyFault
  | unsupportedOperation
  | timeout
deriving DecidableEq, Repr, Inhabited

/-- What an operation returns to its caller (the result columns of R98, R99 and of the operations' rules; D28). -/
inductive Result
  | ok
  | word (v : Word)
  | length (v : DWord)
  | encParams (fields : Vector (String × Word) 13)
  | resolution (width height : Word)
  | mode (m : BitVec 2)
  | fps (v : Word)
  | format (v : Word)
  | handle (d : Dir)
  | bytes (data : List Byte)
  | error (e : Err)
deriving DecidableEq, Repr

/-- How an operation's result is made when its last step is done: a fixed result, or a decode of the words it has read, oldest
first. -/
inductive Finish
  | const (r : Result)
  | word
  | fileLength
  | encParams
  | resolution
  | mode
  | fps
  | format
deriving DecidableEq, Repr

/-- The three half-word updates of a READY register (R93). -/
inductive ReadyUpdate
  | setReady
  | clearReady
  | putOffHi (h : Half)
deriving DecidableEq, Repr

/-- One step of an agent: the pseudocode lines of the operations' rules, in the grain of R8, R70 and R262. `Machine/Ops.lean`
gives each its effect. -/
inductive Micro
  /-- `RegRead` (R110). -/
  | read (r : Reg)
  /-- `RegWrite` (R111). -/
  | write (r : Reg) (v : Word)
  /-- The operation has begun and has made no transaction yet. -/
  | enter
  /-- The `atomic_d` read-modify-write of READY_d (R262). -/
  | rmw (d : Dir) (u : ReadyUpdate)
  /-- The write of the open `atomic_d` block of that number (R263). -/
  | putReady (d : Dir) (id : Nat)
  /-- The indivisible part of BEGIN_TRANSFER (R170). -/
  | claim (d : Dir) (len : Word)
  /-- `return handle(d)` of BEGIN_TRANSFER, to caller `k`: the handle is live from here on (R170, R175). -/
  | giveHandle (d : Dir) (k : Nat)
  /-- MARK_READY's precondition, for caller `k` (R171, R175). -/
  | checkPublished (d : Dir) (k : Nat)
  /-- `slot[d] <- AwaitingCompletion` (R171). -/
  | awaitCompletion (d : Dir)
  /-- WAIT's precondition and `waiter[d] <- waiting`, by caller `k` (R190). -/
  | waitEnter (d : Dir) (k : Nat)
  /-- `block until gate[d] = Signaled`, then the consuming of the signal (R190). -/
  | waitBlock (d : Dir)
  /-- WRITE's `CallerRead` (R231, R63). -/
  | copyIn (n : Word)
  /-- WRITE's `MemWrite` of the bytes still to store, from byte `i` of the buffer on (R231, R62). It is not atomic (R67). -/
  | storeBytes (i : Nat) (bytes : List Byte)
  /-- COMPLETE_AND_RELEASE's precondition, for caller `k` (R172). -/
  | complete (d : Dir) (k : Nat)
  /-- COMPLETE_AND_RELEASE's `MemRead` of the bytes that follow those it has loaded (R172, R62). It is not atomic (R67). -/
  | loadBytes (loaded : List Byte)
  /-- COMPLETE_AND_RELEASE's `CallerWrite` (R172, R63). -/
  | deliver (data : List Byte)
  /-- The internal `release(d)` (R173). -/
  | release (d : Dir)
  /-- `waiter[d] <- none` of ABORT (R174). -/
  | unwait (d : Dir)
  /-- The acknowledge write of a dispatch rule (R250 to R252). -/
  | ack (l : Line)
  /-- `gate[d] <- Signaled` (R191). -/
  | signal (d : Dir)
  /-- The non-register part of the session reset of caller `k`'s session for one direction (R282). -/
  | resetDirection (d : Dir) (k : Nat)
  /-- A register write of the session reset of caller `k`'s session (R282, R214). -/
  | resetReg (r : SReg) (k : Nat)
deriving DecidableEq, Repr

/-- An operation in progress: its remaining steps, the words it has read (oldest first), how its result is made, what it has
delivered to its caller's destination, if anything, and the transfer its procedure acts on, if any: the direction and the `serial` of
the buffer (R175; log 21). -/
structure Task where
  todo  : List Micro
  vals  : List Word
  fin   : Finish
  dst   : Option (List Byte)
  holds : Option (Dir × Nat)
deriving DecidableEq, Repr

/-- A live handle (R175): the session that owns it, and whether that session's WAIT for this transfer has returned (R172; log 15). -/
structure Handle where
  owner   : Nat
  awaited : Bool
deriving DecidableEq, Repr

/-- An `atomic_d` block whose read has been made and whose write has not (R262, R263; log 11): its number, the word the write will
store, and whether it belongs to a procedure of the transfer in the slot. -/
structure OpenBlock where
  id          : Nat
  word        : Word
  forTransfer : Bool
deriving DecidableEq, Repr

/-- What is known of one caller, a stream of operations in the ordinary context that does one operation at a time (R4, R8): its
operation in progress, what its last operation returned (`none` where it returned nothing: logs 20, 24), and the bytes last delivered
to its destination (R63). A session has several callers, since one session may run a READ and a WRITE at the same time (R234; log 30). -/
structure Caller where
  task   : Option Task
  result : Option Result
  dst    : List Byte
deriving DecidableEq, Repr

/-- An agent that has steps of its own (R4, R5): a caller, or the event context in one line's reaction. -/
inductive Agent
  | caller (k : Nat)
  | handler (l : Line)
deriving DecidableEq, Repr

/-- What the device does in one step (its liberties, R7). -/
inductive DeviceMove
  /-- Drive another value on a status register. -/
  | drive (r : DReg) (v : Word)
  /-- Raise an event line (R43). -/
  | raise (l : Line)
  /-- Read any register (R117). -/
  | readRegister (r : Reg)
  /-- Write bytes into the offered read buffer, from byte `off` on. -/
  | fill (off : Nat) (bytes : List Byte)
  /-- Read `n` bytes of the offered write buffer, from byte `off` on. -/
  | fetch (off n : Nat)
deriving DecidableEq, Repr

/-- One move of the schedule: what happens next, and by whom. -/
inductive Move
  /-- Caller `k` issues the operation of these bytes at this surface; the operations of the event context are refused here (R5, R259). -/
  | issue (k : Nat) (surface : Surface) (bytes : List Byte)
  /-- The event context issues the operation of these bytes: an event dispatch or a SIGNAL, all others are refused (R5, R191, R259). -/
  | issueByEvent (surface : Surface) (bytes : List Byte)
  /-- An agent with an operation in progress goes on with it. -/
  | resume (a : Agent)
  /-- The next turn of an agent is preempted after `n + 1` of its steps (R253). -/
  | preempt (n : Nat)
  /-- The agent makes the read of its next `atomic_d` block and not yet the write (R262, R263). -/
  | openBlock (a : Agent)
  /-- Caller `k` makes only the next `m` bytes of its copy between the caller's memory and the buffer (R67). -/
  | partCopy (k m : Nat)
  /-- The session of caller `k` is opened or closed, and the caller makes the session reset (R282). -/
  | sessionReset (k : Nat)
  /-- The device moves. -/
  | device (m : DeviceMove)
  /-- The allocator's answer from now on (R9). -/
  | allocator (answer : Option (Word × Nat))
  /-- What a copy from the caller gives from now on (R63); `none` is its failure. -/
  | source (bytes : Option (List Byte))
  /-- Whether a copy to the caller succeeds from now on (R63). -/
  | destination (succeeds : Bool)
deriving DecidableEq, Repr

/-- The state of the block and of the agents around it. -/
structure State where
  csr           : Csr
  status        : Status
  slot          : PerDir Slot
  buf           : PerDir (Option Buffer)
  gate          : PerDir Gate
  waiter        : PerDir (Option Nat)
  handle        : PerDir (Option Handle)
  opened        : PerDir (Option OpenBlock)
  pending       : PerLine Bool
  handler       : PerLine (Option Task)
  callers       : List (Nat × Caller)
  caller        : Nat
  quantum       : Option Nat
  allocator     : Option (Word × Nat)
  source        : Option (List Byte)
  destinationOk : Bool
  draws         : Nat
  hasTimeout    : Bool
  seenWord      : Option Word
  seenBytes     : List Byte
  schedule      : List Move
deriving DecidableEq, Repr

/-- Where the machine stops with a fault: nowhere. The spec's errors are values returned (R240), and what it gives no meaning is
`refuse` (R247). -/
inductive Fault
deriving DecidableEq, Repr

/-- Where the spec gives a situation no meaning (`refuse`, R247). -/
inductive Refusal
  /-- exec has no meaning for the instruction yet. Safe: nothing follows. -/
  | notModelled (mnemonic : String)
  /-- The issued bytes name no operation (R101, R104). Raised by a step that issues them. Safe. -/
  | undecodable (e : DecodeError)
  /-- A host write to a device-status register (R114, U3). Raised by `RegWrite`. Safe. -/
  | statusRegisterWrite (r : DReg)
  /-- A write to 0x44 or 0x48, whose effect is not in the source (R145, R147, U10). Raised by `RegWrite`. Safe. -/
  | unusedAcknowledgeWrite (r : AReg)
  /-- A write of another value than ACK_VALUE to an acknowledge register (R115, U10). Raised by `RegWrite`. Safe. -/
  | notTheAcknowledgeValue (l : Line)
  /-- A length above LEN_MAX, outside the operand's domain (D10). Raised by BEGIN_TRANSFER, READ, WRITE. Safe. -/
  | lengthOutOfDomain
  /-- MARK_READY on a slot that is not Published (R171, U7). Safe. -/
  | slotNotPublished (d : Dir)
  /-- COMPLETE_AND_RELEASE on a slot that is not AwaitingCompletion, or before the WAIT of the session that owns the handle has
  returned for this transfer (R172, U7). Safe. -/
  | completionNotAwaited (d : Dir)
  /-- A procedure on a handle that is not live, or by a session that does not own it (R171, R175, U7). Raised by MARK_READY, and by a
  step that finds its slot Unallocated. Safe. -/
  | handleNotLive (d : Dir)
  /-- A step that uses the transfer of its procedure, released since (R175, U7; log 21). Never a WAIT (R190). Safe. -/
  | transferGone
  /-- A second WAIT while one is outstanding (R190, U8). Safe. -/
  | secondWaiter (d : Dir)
  /-- A host access outside a live buffer (R62). Safe. -/
  | outsideBuffer (d : Dir)
  /-- A device access outside a live buffer, outside `[ADDR_d, ADDR_d + SIZE_d)`, or while the ready bit is 0 (R62, R77, R7 duty iii,
  U12, U18, U22). Raised by the device's own moves, never by an operation. Safe. -/
  | deviceOutsideWindow (d : Dir)
  /-- ABORT where HAS_TIMEOUT is false (R104, R174). Safe. -/
  | abortAbsent
  /-- ABORT by an agent that is not blocked in WAIT.d of a transfer in flight (R174). Safe. -/
  | abortNotWaiting (d : Dir)
  /-- A dispatch of an event whose `irq_pending` is false (R249). Safe. -/
  | eventNotPending (l : Line)
  /-- An agent with an operation in progress is to begin another (R8, R254). Safe. -/
  | agentBusy (a : Agent)
  /-- An agent that is to open an `atomic_d` block has none next. Safe. -/
  | blockNotNext (a : Agent)
  /-- A caller that is to make a part of a copy has no copy next. Safe. -/
  | copyNotNext (k : Nat)
  /-- A caller issues a SIGNAL or an event dispatch, which only the event context performs (R5, R191, R259). Safe. -/
  | notAnOrdinaryOperation
  /-- The event context issues anything else (R5, R257, R259). Safe. -/
  | notAnEventOperation
  /-- A step of a session reset while another session has a WAIT outstanding (R282, U19; log 20). Safe. -/
  | foreignWaiter (d : Dir)
deriving DecidableEq, Repr

/-- The creation of the block (R47, R280). The spec gives the slots, buffers, gates and waiters; it leaves the registers,
`irq_pending` and the inputs unspecified, so they are uninterpreted constants (logs 2, 3, 4, 10); the model's own fields start
empty (logs 1, 8, 11, 15, 35). -/
def State.reset : State where
  csr :=
    { readBufferReady := Config.powerOn .readBufferReady
      readBufferAddr := Config.powerOn .readBufferAddr
      readBufferOffset := Config.powerOn .readBufferOffset
      readBufferSize := Config.powerOn .readBufferSize
      writeBufferReady := Config.powerOn .writeBufferReady
      writeBufferAddr := Config.powerOn .writeBufferAddr
      writeBufferOffset := Config.powerOn .writeBufferOffset
      writeBufferSize := Config.powerOn .writeBufferSize
      readTransferDone := Config.powerOn .readTransferDone
      writeTransferDone := Config.powerOn .writeTransferDone }
  status :=
    { readFileLengthHi := Config.powerOnStatus .readFileLengthHi
      readFileLength := Config.powerOnStatus .readFileLength
      encParams1 := Config.powerOnStatus .encParams1
      encParams2 := Config.powerOnStatus .encParams2
      rawResolution := Config.powerOnStatus .rawResolution
      usecaseMode := Config.powerOnStatus .usecaseMode
      encParams3 := Config.powerOnStatus .encParams3
      encParams4 := Config.powerOnStatus .encParams4
      encParams5 := Config.powerOnStatus .encParams5 }
  slot := { r := .unallocated, w := .unallocated }
  buf := { r := none, w := none }
  gate := { r := .pending, w := .pending }
  waiter := { r := none, w := none }
  handle := { r := none, w := none }
  opened := { r := none, w := none }
  pending := { rc := Config.powerOnPending .rc, wc := Config.powerOnPending .wc, hd := Config.powerOnPending .hd }
  handler := { rc := none, wc := none, hd := none }
  callers := []
  caller := 0
  quantum := none
  allocator := Config.initialAllocator
  source := Config.initialSource
  destinationOk := Config.initialDestinationOk
  draws := 0
  hasTimeout := false
  seenWord := none
  seenBytes := []
  schedule := []

end Sys2Proof.Machine
end

