-- ==== Sys2Proof/Machine/Registers.lean ====
section
/-! DEFINITION. Reading and changing the fields of the state: the register bank by slot, the per-direction and per-line values, the
agents' records. All reads and writes of the meanings go through these. -/

namespace Sys2Proof.Machine

/-- A class S register of the bank. -/
def Csr.get (c : Csr) : SReg → Word
  | .readBufferReady => c.readBufferReady
  | .readBufferAddr => c.readBufferAddr
  | .readBufferOffset => c.readBufferOffset
  | .readBufferSize => c.readBufferSize
  | .writeBufferReady => c.writeBufferReady
  | .writeBufferAddr => c.writeBufferAddr
  | .writeBufferOffset => c.writeBufferOffset
  | .writeBufferSize => c.writeBufferSize
  | .readTransferDone => c.readTransferDone
  | .writeTransferDone => c.writeTransferDone

/-- The bank with one class S register changed. -/
def Csr.set (c : Csr) (r : SReg) (v : Word) : Csr :=
  match r with
  | .readBufferReady => { c with readBufferReady := v }
  | .readBufferAddr => { c with readBufferAddr := v }
  | .readBufferOffset => { c with readBufferOffset := v }
  | .readBufferSize => { c with readBufferSize := v }
  | .writeBufferReady => { c with writeBufferReady := v }
  | .writeBufferAddr => { c with writeBufferAddr := v }
  | .writeBufferOffset => { c with writeBufferOffset := v }
  | .writeBufferSize => { c with writeBufferSize := v }
  | .readTransferDone => { c with readTransferDone := v }
  | .writeTransferDone => { c with writeTransferDone := v }

/-- The word the device drives on a class D register. -/
def Status.get (c : Status) : DReg → Word
  | .readFileLengthHi => c.readFileLengthHi
  | .readFileLength => c.readFileLength
  | .encParams1 => c.encParams1
  | .encParams2 => c.encParams2
  | .rawResolution => c.rawResolution
  | .usecaseMode => c.usecaseMode
  | .encParams3 => c.encParams3
  | .encParams4 => c.encParams4
  | .encParams5 => c.encParams5

/-- The status words with one changed. -/
def Status.set (c : Status) (r : DReg) (v : Word) : Status :=
  match r with
  | .readFileLengthHi => { c with readFileLengthHi := v }
  | .readFileLength => { c with readFileLength := v }
  | .encParams1 => { c with encParams1 := v }
  | .encParams2 => { c with encParams2 := v }
  | .rawResolution => { c with rawResolution := v }
  | .usecaseMode => { c with usecaseMode := v }
  | .encParams3 => { c with encParams3 := v }
  | .encParams4 => { c with encParams4 := v }
  | .encParams5 => { c with encParams5 := v }

/-- The value of a direction. -/
def PerDir.get {α : Type} (p : PerDir α) : Dir → α
  | .read => p.r
  | .write => p.w

/-- The pair with one direction's value changed. -/
def PerDir.set {α : Type} (p : PerDir α) (d : Dir) (x : α) : PerDir α :=
  match d with
  | .read => { p with r := x }
  | .write => { p with w := x }

/-- The value of a line. -/
def PerLine.get {α : Type} (p : PerLine α) : Line → α
  | .rc => p.rc
  | .wc => p.wc
  | .hd => p.hd

/-- The triple with one line's value changed. -/
def PerLine.set {α : Type} (p : PerLine α) (l : Line) (x : α) : PerLine α :=
  match l with
  | .rc => { p with rc := x }
  | .wc => { p with wc := x }
  | .hd => { p with hd := x }

/-- The entry of a key in a list of pairs. -/
def assocGet {α : Type} (k : Nat) : List (Nat × α) → Option α
  | [] => none
  | (j, x) :: rest => if k = j then some x else assocGet k rest

/-- The list with the key's entry put in, before the first greater key. -/
def assocSet {α : Type} (k : Nat) (x : α) : List (Nat × α) → List (Nat × α)
  | [] => [(k, x)]
  | (j, y) :: rest =>
    if k < j then (k, x) :: (j, y) :: rest
    else if k = j then (k, x) :: rest
    else (j, y) :: assocSet k x rest

/-- The keys rise strictly. -/
def risingKeys {α : Type} : List (Nat × α) → Bool
  | [] => true
  | [_] => true
  | (j, _) :: (k, y) :: rest => decide (j < k) && risingKeys ((k, y) :: rest)

/-- READY_d (41_transfer_buffer.md: offsets 0x00 and 0x10). -/
def readyReg : Dir → SReg
  | .read => .readBufferReady
  | .write => .writeBufferReady

/-- ADDR_d. -/
def addrReg : Dir → SReg
  | .read => .readBufferAddr
  | .write => .writeBufferAddr

/-- OFFSET_d. -/
def offsetReg : Dir → SReg
  | .read => .readBufferOffset
  | .write => .writeBufferOffset

/-- SIZE_d. -/
def sizeReg : Dir → SReg
  | .read => .readBufferSize
  | .write => .writeBufferSize

/-- The done-flag register of a direction (R19, R20). -/
def doneReg : Dir → SReg
  | .read => .readTransferDone
  | .write => .writeTransferDone

/-- The line an acknowledge register acknowledges (R32, R33, R34); 0x44 and 0x48 have none (R23, R24). -/
def ackLine : AReg → Option Line
  | .readBufferTransferDone => none
  | .writeBufferTransferDone => none
  | .readBufferTransferDoneIntr => some .rc
  | .writeBufferTransferDoneIntr => some .wc
  | .hostDoneIntr => some .hd

/-- The acknowledge register of a line (R32, R33, R34). -/
def ackReg : Line → AReg
  | .rc => .readBufferTransferDoneIntr
  | .wc => .writeBufferTransferDoneIntr
  | .hd => .hostDoneIntr

/-- The direction's completion line (R250, R251). -/
def completionLine : Dir → Line
  | .read => .rc
  | .write => .wc

/-- The session a caller belongs to: callers `256 * n` to `256 * n + 255` are those of session `n` (R4, R234; log 30). -/
def sessionOf (k : Nat) : Nat := k / 256

/-- A caller that has issued nothing. -/
def Caller.fresh : Caller := { task := none, result := none, dst := [] }

namespace State

/-- `csr[off]` of a class S register. -/
def reg (s : State) (r : SReg) : Word := s.csr.get r

/-- `csr[off] <- v`. -/
def setReg (s : State) (r : SReg) (v : Word) : State := { s with csr := s.csr.set r v }

/-- `dev_status(off)` (R114). -/
def devStatus (s : State) (r : DReg) : Word := s.status.get r

/-- The device drives another value. -/
def setStatus (s : State) (r : DReg) (v : Word) : State := { s with status := s.status.set r v }

/-- `slot[d] <- x`. -/
def setSlot (s : State) (d : Dir) (x : Slot) : State := { s with slot := s.slot.set d x }

/-- `buf[d] <- x`. -/
def setBuf (s : State) (d : Dir) (x : Option Buffer) : State := { s with buf := s.buf.set d x }

/-- `gate[d] <- x`. -/
def setGate (s : State) (d : Dir) (x : Gate) : State := { s with gate := s.gate.set d x }

/-- `waiter[d] <- x`. -/
def setWaiter (s : State) (d : Dir) (x : Option Nat) : State := { s with waiter := s.waiter.set d x }

/-- The live handle of `d`, if any (R175). -/
def setHandle (s : State) (d : Dir) (x : Option Handle) : State := { s with handle := s.handle.set d x }

/-- The `atomic_d` block that stands between its read and its write, if any (R262). -/
def setOpened (s : State) (d : Dir) (x : Option OpenBlock) : State := { s with opened := s.opened.set d x }

/-- `irq_pending[line] <- x`. -/
def setPending (s : State) (l : Line) (x : Bool) : State := { s with pending := s.pending.set l x }

/-- The reaction in progress on a line. -/
def setHandler (s : State) (l : Line) (x : Option Task) : State := { s with handler := s.handler.set l x }

/-- The record of caller `k`. -/
def callerOf (s : State) (k : Nat) : Caller := (assocGet k s.callers).getD Caller.fresh

/-- The record of caller `k` becomes `x`. -/
def setCaller (s : State) (k : Nat) (x : Caller) : State := { s with callers := assocSet k x s.callers }

/-- Caller `k` has no operation in progress. -/
def idle (s : State) (k : Nat) : Bool := (s.callerOf k).task.isNone

/-- One more free value has been drawn. -/
def drawn (s : State) : State := { s with draws := s.draws + 1 }

/-- No preemption is planned any more: a turn has ended. -/
def turnOver (s : State) : State := { s with quantum := none }

end State

end Sys2Proof.Machine
end

