-- ==== Sys2Proof/Machine/Memory.lean ====
section
/-! DEFINITION. The DMA buffer memory (20_memory.md R61, R62): the bytes of a buffer by host-visible address, in one canonical form,
and the byte view of the register region (R64). -/

namespace Sys2Proof.Machine

/-- The canonical form: strictly rising addresses, so no address twice. A byte that nothing has written is not listed. -/
def Memory.wf (m : Memory) : Bool := risingKeys m

/-- The byte written at an address, if one has been. -/
def Memory.read (m : Memory) (a : Nat) : Option Byte := assocGet a m

/-- A byte is written at an address. -/
def Memory.write (m : Memory) (a : Nat) (b : Byte) : Memory := assocSet a b m

/-- Bytes are written from an address up (R62: "Bytes are numbered from the lowest address"). -/
def Memory.writeBytes (m : Memory) (a : Nat) : List Byte → Memory
  | [] => m
  | b :: bs => Memory.writeBytes (m.write a b) (a + 1) bs

/-- All listed addresses lie in `[lo, hi)`. -/
def Memory.within (m : Memory) (lo hi : Nat) : Bool := m.all fun c => decide (lo ≤ c.1) && decide (c.1 < hi)

/-- Byte `i` of a buffer (R61): what was last written there, or the unspecified content of the fresh buffer (R9, U14). -/
def Buffer.byte (b : Buffer) (i : Nat) : Byte :=
  (Memory.read b.content (b.hostAddr + i)).getD (Config.freshByte b.serial i)

/-- Bytes `i` to `i + n - 1` of a buffer, lowest first. -/
def Buffer.bytes (b : Buffer) (i n : Nat) : List Byte := (List.range n).map fun j => b.byte (i + j)

/-- The buffer with bytes stored from byte `i` on. -/
def Buffer.store (b : Buffer) (i : Nat) (bs : List Byte) : Buffer :=
  { b with content := Memory.writeBytes b.content (b.hostAddr + i) bs }

/-- What a buffer of the model always satisfies (R41, R62): a length in 1..LEN_MAX, a canonical content, inside the buffer. -/
def Buffer.wf (b : Buffer) : Bool :=
  decide (1 ≤ b.len) && decide (b.len ≤ Config.lenMax) && Memory.wf b.content
    && Memory.within b.content b.hostAddr (b.hostAddr + b.len)

/-- The canonical form of all buffer memory of a state. -/
def State.memoryWf (s : State) : Bool :=
  (s.buf.r.all fun b => Memory.wf b.content) && (s.buf.w.all fun b => Memory.wf b.content)

/-- The byte of direction `d`'s live buffer at a host-visible address, if the address lies in it (R61, R62). -/
def State.bufferByte (s : State) (d : Dir) (a : Nat) : Option Byte :=
  match s.buf.get d with
  | none => none
  | some b => if b.hostAddr ≤ a ∧ a < b.hostAddr + b.len then some (b.byte (a - b.hostAddr)) else none

/-- `MemWrite(host_addr + i, n, bytes)` on the buffer of direction `d`, defined only inside a live buffer (R62). -/
def memWrite (s : State) (d : Dir) (i : Nat) (bs : List Byte) : Except Refusal State :=
  match s.buf.get d with
  | none => .error (.outsideBuffer d)
  | some b => if i + bs.length ≤ b.len then .ok (s.setBuf d (some (b.store i bs))) else .error (.outsideBuffer d)

/-- `MemRead(host_addr + i, n)` on the buffer of direction `d`, defined only inside a live buffer (R62). -/
def memRead (s : State) (d : Dir) (i n : Nat) : Except Refusal (List Byte) :=
  match s.buf.get d with
  | none => .error (.outsideBuffer d)
  | some b => if i + n ≤ b.len then .ok (b.bytes i n) else .error (.outsideBuffer d)

/-- The byte of the register region at a byte offset of a class S or class D register, little-endian (R64): the byte at
`off + i` is bits [8i+7:8i]. The acknowledge registers store nothing. -/
def State.regionByte (s : State) (off : Nat) : Option Byte :=
  match regAtIndex (off / 4) with
  | some (.s r) => some (byteOf (s.reg r) (off % 4))
  | some (.d r) => some (byteOf (s.devStatus r) (off % 4))
  | some (.a _) => none
  | none => none

end Sys2Proof.Machine
end

