-- ==== Sys2Proof/Machine/Operands.lean ====
section
/-! DEFINITION. The codec: field access, the register formats, the assembly and splitting of operands, and the making of results
(30_encoding.md R80 to R94). Pure functions, no I/O. -/

namespace Sys2Proof.Machine

/-- `DONE_MARK` (00_scope.md section 5). -/
def doneMark : Word := 0x000000EF

/-- `DONE_CLEAR`. -/
def doneClear : Word := 0x00000000

/-- `2^w - 1` as a word: the mask of a field of `w` bits (R80). -/
def fieldMask (w : Nat) : Word := BitVec.ofNat 32 (2 ^ w - 1)

/-- `field_get(word, lo, w)` (R80). -/
def fieldGet (word : Word) (lo w : Nat) : Word := (word >>> lo) &&& fieldMask w

/-- `field_put(word, lo, w, v)` (R80): the field takes the low `w` bits of `v`, which may be any unsigned number (R89). -/
def fieldPut (word : Word) (lo w v : Nat) : Word :=
  (word &&& ~~~(fieldMask w <<< lo)) ||| ((BitVec.ofNat 32 v &&& fieldMask w) <<< lo)

/-- `assemble_length(lo, hi)` (R84, R92). -/
def assembleLength (lo hi : Word) : DWord := lo.setWidth 64 ||| (hi.setWidth 64 <<< 32)

/-- `decode_resolution(word)` (R85): width, then height, each as a u32. -/
def decodeResolution (word : Word) : Word × Word := (fieldGet word 0 16, fieldGet word 16 16)

/-- `encode_resolution(width, height)` (R85). -/
def encodeResolution (width height : Word) : Word := (width &&& (0xFFFF : Word)) ||| ((height &&& (0xFFFF : Word)) <<< 16)

/-- `decode_mode(word)` (R86): UseCaseMode is the two-bit number. -/
def decodeMode (word : Word) : BitVec 2 := (fieldGet word 0 2).setWidth 2

/-- `decode_format(word)` (R86). -/
def decodeFormat (word : Word) : Word := fieldGet word 2 3

/-- `decode_fps(word)` (R86). -/
def decodeFps (word : Word) : Word := fieldGet word 5 10

/-- `encode_usecase(mode, format, fps)` (R86). -/
def encodeUsecase (mode format fps : Word) : Word :=
  (mode &&& (3 : Word)) ||| ((format &&& (7 : Word)) <<< 2) ||| ((fps &&& (0x3FF : Word)) <<< 5)

/-- The width of an entry of `ENC_FIELD_TABLE` (R88). -/
def encFieldWidth (f : EncField) : Nat := min (f.widthLess1.val + 1) (32 - f.lo.val)

/-- Two entries of the table share no bit of a word (R88). -/
def disjointFields (f g : EncField) : Bool :=
  decide (f.word ≠ g.word) || decide (f.lo.val + encFieldWidth f ≤ g.lo.val) || decide (g.lo.val + encFieldWidth g ≤ f.lo.val)

/-- The ranges of any two entries are disjoint (R88). -/
def legalTable (table : EncFieldTable) : Bool := decide (∀ i j : Fin 13, i ≠ j → disjointFields table[i] table[j] = true)

/-- Some table with disjoint ranges: it stands where the free one has overlapping ranges, which R88 excludes (log 6). -/
def someLegalTable : EncFieldTable :=
  Vector.ofFn fun k => { name := "", word := 0, lo := Fin.ofNat 32 (2 * k.val), widthLess1 := 1 }

/-- `ENC_FIELD_TABLE`: the free table of Config, which has the disjoint ranges R88 asks for. Nothing else is known of it. -/
def encTable : EncFieldTable := if legalTable Config.encFieldTable then Config.encFieldTable else someLegalTable

/-- Field `k` of `decode_encoding_parameters` (R88), from the five words in the order of ENC_PARAMS_1 to ENC_PARAMS_5. -/
def decodeEncField (words : Vector Word 5) (f : EncField) : String × Word :=
  (f.name, fieldGet words[f.word] f.lo.val (encFieldWidth f))

/-- `decode_encoding_parameters(word1, ..., word5)` under a table (R88). -/
def decodeEncodingParametersBy (table : EncFieldTable) (w1 w2 w3 w4 w5 : Word) : Vector (String × Word) 13 :=
  table.map (decodeEncField #v[w1, w2, w3, w4, w5])

/-- `decode_encoding_parameters(word1, ..., word5)` under the block's own table, the OPEN `ENC_FIELD_TABLE`. -/
def decodeEncodingParameters (w1 w2 w3 w4 w5 : Word) : Vector (String × Word) 13 :=
  decodeEncodingParametersBy encTable w1 w2 w3 w4 w5

/-- `offset_lo(o)` (R90). -/
def offsetLo (o : DWord) : Half := o.extractLsb' 0 16

/-- `offset_hi(o)` (R90): `(o >> 16) & 0xFFFF`. -/
def offsetHi (o : DWord) : Half := o.extractLsb' 16 16

/-- `set_ready(v)` (R93, D16). -/
def setReadyBit (v : Word) : Word := v ||| (0x00000001 : Word)

/-- `clear_ready(v)` (R93, D16). -/
def clearReadyBit (v : Word) : Word := v &&& (0xFFFFFFFE : Word)

/-- `put_off_hi(v, h)` (R93). -/
def putOffHi (v : Word) (h : Half) : Word := (v &&& (0x0000FFFF : Word)) ||| ((h.setWidth 32 : Word) <<< 16)

/-- The update of a READY register in an `atomic_d` block. -/
def applyReadyUpdate (u : ReadyUpdate) (v : Word) : Word :=
  match u with
  | .setReady => setReadyBit v
  | .clearReady => clearReadyBit v
  | .putOffHi h => putOffHi v h

/-- `device_offset(d)`, the 32-bit offset as the device sees it (R91). -/
def deviceOffset (s : State) (d : Dir) : Word :=
  (s.reg (readyReg d)).extractLsb' 16 16 ++ (s.reg (offsetReg d)).extractLsb' 0 16

/-- The numeric code of an error (R240, D14). -/
def errorCode : Err → Nat
  | .invalidArgument => 1
  | .allocationFailed => 2
  | .transferAlreadyInFlight => 3
  | .copyFault => 4
  | .unsupportedOperation => 5
  | .timeout => 6

/-- The result of an operation whose steps are done, from the words it has read, oldest first (R200 to R205). -/
def makeResult (f : Finish) (vals : List Word) : Result :=
  match f with
  | .const r => r
  | .word => .word (vals.getD 0 0)
  | .fileLength => .length (assembleLength (vals.getD 0 0) (vals.getD 1 0))
  | .encParams =>
    .encParams (decodeEncodingParameters (vals.getD 0 0) (vals.getD 1 0) (vals.getD 2 0) (vals.getD 3 0) (vals.getD 4 0))
  | .resolution => .resolution (decodeResolution (vals.getD 0 0)).1 (decodeResolution (vals.getD 0 0)).2
  | .mode => .mode (decodeMode (vals.getD 0 0))
  | .fps => .fps (decodeFps (vals.getD 0 0))
  | .format => .format (decodeFormat (vals.getD 0 0))

end Sys2Proof.Machine
end

