-- ==== Sys2Proof/Machine/Flags.lean ====
section
/-! DEFINITION. The flags as they are read from the state (10_state.md section 3, R37, R38, R43, R49). They are register bits or
fields of State, stored once; the operations write them through `Machine/Ops.lean`. -/

namespace Sys2Proof.Machine.State

/-- `ready[d]`, bit 0 of READY_d (R37). -/
def ready (s : State) (d : Dir) : Bool := (s.reg (readyReg d)).getLsbD 0

/-- `done[d]` (R38): true at 0xEF, false at 0; any other content is neither (U5). -/
def done (s : State) (d : Dir) : Option Bool :=
  if s.reg (doneReg d) = doneMark then some true
  else if s.reg (doneReg d) = doneClear then some false
  else none

/-- `off_hi`, the high half of the direction's offset (R11, R15). -/
def offHi (s : State) (d : Dir) : Half := (s.reg (readyReg d)).extractLsb' 16 16

/-- `off_lo` (R13, R17). -/
def offLo (s : State) (d : Dir) : Half := (s.reg (offsetReg d)).extractLsb' 0 16

/-- The reserved bits [15:1] of READY_d (R11, R105). -/
def reservedBits (s : State) (d : Dir) : BitVec 15 := (s.reg (readyReg d)).extractLsb' 1 15

/-- Bits [31:16] of OFFSET_d (R13, R105). -/
def offsetTop (s : State) (d : Dir) : Half := (s.reg (offsetReg d)).extractLsb' 16 16

/-- A transfer is in flight on `d`: the slot is Published or AwaitingCompletion (R176). -/
def inFlight (s : State) (d : Dir) : Bool := decide (s.slot.get d ≠ .unallocated)

end Sys2Proof.Machine.State
end

