-- ==== Sys2Proof/Machine/Ops.lean ====
section
/-! DEFINITION. The named operations of the block: the two register transactions, the effect of each step of an agent, an agent's
turn, and the shared ways an operation begins, returns, raises an error or is dispatched as an event. Every meaning is a list of
steps run by one of these. -/

namespace Sys2Proof.Machine

/-! ## The two register transactions (40_csr_access.md) -/

/-- `RegRead` (R110): class S the register, class D the device's present word, class A a draw (R113, R114, R115). -/
def regRead (r : Reg) (s : State) : Word × State :=
  match r with
  | .s r => (s.reg r, s)
  | .d r => (s.devStatus r, s)
  | .a _ => (Config.drawWord s.draws, s.drawn)

/-- The acknowledge effect (R43, R115): the event's pending mark is cleared, nothing is stored. -/
def acknowledge (l : Line) (s : State) : State := s.setPending l false

/-- `RegWrite` (R111): class S stores all 32 bits, class D is refused (R114), class A acknowledges when the value is the line's
ACK_VALUE and is refused otherwise (R115). -/
def regWrite (r : Reg) (v : Word) (s : State) : Except Refusal State :=
  match r with
  | .s r => .ok (s.setReg r v)
  | .d r => .error (.statusRegisterWrite r)
  | .a r =>
    match ackLine r with
    | none => .error (.unusedAcknowledgeWrite r)
    | some l => if v = Config.ackValue l then .ok (acknowledge l s) else .error (.notTheAcknowledgeValue l)

/-- An `atomic_d` block: READY_d is read, updated and written in one indivisible step (R262). -/
def updateReady (d : Dir) (u : ReadyUpdate) (s : State) : State :=
  s.setReg (readyReg d) (applyReadyUpdate u (s.reg (readyReg d)))

/-- The open block of `d`, if any, makes its write (R263). -/
def closeOpen (d : Dir) (s : State) : State :=
  match s.opened.get d with
  | none => s
  | some o => (s.setReg (readyReg d) o.word).setOpened d none

/-- `release(d)` (R173): the buffer is freed and the slot Unallocated; no register and no gate is touched. The handle is live no more
(R175), and an open block of a procedure of this transfer, whose next step is refused, will make no write (log 21). -/
def freeBuffer (d : Dir) (s : State) : State :=
  (((s.setBuf d none).setSlot d .unallocated).setHandle d none).setOpened d ((s.opened.get d).filter fun o => !o.forTransfer)

/-! ## One step of an agent -/

/-- What one step gives: the operation goes on with the task and state it left; it returns an error; the agent has no step until
something changes (`block until`); or the spec gives the step no meaning. -/
inductive MicroOut
  | go (t : Task) (s : State)
  | raise (e : Err) (s : State)
  | hold
  | refuse (r : Refusal)
deriving Repr

/-- The buffer BEGIN_TRANSFER installs: what `alloc(len)` answered, with nothing written to it (R9, R170). -/
def freshBuffer (len : Word) (devAddr : Word) (hostAddr : Nat) (s : State) : Buffer :=
  { len := len.toNat, devAddr := devAddr, hostAddr := hostAddr, serial := s.draws, content := [] }

/-- The state after BEGIN_TRANSFER's indivisible part succeeded (R170): the buffer in the slot, Published, the gate Pending. The handle
is returned later. -/
def install (d : Dir) (b : Buffer) (s : State) : State :=
  ((((s.setBuf d (some b)).setSlot d .published).setGate d .pending).setHandle d none).drawn

/-- The transfer in the slot of `d`: the direction and the serial of its buffer. -/
def transferOf (d : Dir) (s : State) : Option (Dir × Nat) := (s.buf.get d).map fun b => (d, b.serial)

/-- The transfer a task's procedure acts on is still the one in its slot (R175; log 21). -/
def live (t : Task) (s : State) : Bool := t.holds.all fun h => decide (transferOf h.1 s = some h)

/-- The indivisible part of BEGIN_TRANSFER (R170, R248): in flight first, then the zero length, then the allocator. On success the
writes of ADDR_d and SIZE_d come next. -/
def claim (d : Dir) (len : Word) (t : Task) (s : State) : MicroOut :=
  if s.slot.get d ≠ .unallocated then .raise .transferAlreadyInFlight s
  else if len = 0 then .raise .allocationFailed s
  else match s.allocator with
    | none => .raise .allocationFailed s
    | some (devAddr, hostAddr) =>
      .go { t with todo := .write (.s (addrReg d)) devAddr :: .write (.s (sizeReg d)) len :: t.todo, holds := some (d, s.draws) }
        (install d (freshBuffer len devAddr hostAddr s) s)

/-- BEGIN_TRANSFER's return: from here on the handle is live, and the session of caller `k` owns it (R175). -/
def giveHandle (d : Dir) (k : Nat) (t : Task) (s : State) : MicroOut :=
  if s.slot.get d = .unallocated then .refuse (.handleNotLive d)
  else .go t (s.setHandle d (some { owner := sessionOf k, awaited := false }))

/-- An `atomic_d` block, both transactions in one step (R257, R262). It waits for nobody: if another block of `d` stands between its
read and its write, that one's write is made first, so that neither comes between the other's two transactions (log 11). -/
def readyBlock (d : Dir) (u : ReadyUpdate) (t : Task) (s : State) : MicroOut := .go t (updateReady d u (closeOpen d s))

/-- The write of the open block of that number; no other step, if another block has made it write before (log 11). It overwrites what
came between, which the exclusion does not cover (R263). -/
def closeBlock (d : Dir) (id : Nat) (s : State) : State :=
  if (s.opened.get d).any fun o => decide (o.id = id) then closeOpen d s else s

/-- The session of caller `k` owns the live handle of `d` (R171, R175). -/
def ownsHandle (d : Dir) (k : Nat) (s : State) : Bool := (s.handle.get d).any fun h => decide (h.owner = sessionOf k)

/-- MARK_READY's precondition (R171): the slot is Published, and the handle is live and the caller's own (R175; log 33). -/
def checkPublished (d : Dir) (k : Nat) (t : Task) (s : State) : MicroOut :=
  if s.slot.get d ≠ .published then .refuse (.slotNotPublished d)
  else if ownsHandle d k s then .go { t with holds := transferOf d s } s
  else .refuse (.handleNotLive d)

/-- `slot[d] <- AwaitingCompletion` (R171), on a slot that is still Published (log 21). -/
def startAwaiting (d : Dir) (t : Task) (s : State) : MicroOut :=
  if s.slot.get d = .published then .go t (s.setSlot d .awaitingCompletion) else .refuse (.handleNotLive d)

/-- WAIT's precondition and the waiter mark (R190), tested and set in one step (DESIGN CHOICE, log 11). -/
def enterWait (d : Dir) (k : Nat) (t : Task) (s : State) : MicroOut :=
  if s.waiter.get d = none then .go t (s.setWaiter d (some k)) else .refuse (.secondWaiter d)

/-- The handle of `d` after the WAIT.d of caller `k` has returned (R172; log 15): when the slot awaits completion and the caller is of
the session that owns the handle, its WAIT for this transfer has returned. -/
def noteWaited (d : Dir) (k : Option Nat) (s : State) : Option Handle :=
  (s.handle.get d).map fun h =>
    { h with awaited := h.awaited || (decide (s.slot.get d = .awaitingCompletion) && decide (k.map sessionOf = some h.owner)) }

/-- The state after WAIT.d has consumed the signal (R190), for the transfer of caller `k`'s session, if for any. -/
def consumeSignal (d : Dir) (k : Option Nat) (s : State) : State :=
  ((s.setGate d .pending).setWaiter d none).setHandle d (noteWaited d k s)

/-- The caller whose WAIT.d returns for the transfer in the slot: the one that waits; nobody where it waits in a READ or WRITE whose own
transfer has been released (log 15). -/
def waiterFor (d : Dir) (t : Task) (s : State) : Option Nat := if live t s then s.waiter.get d else none

/-- `block until gate[d] = Signaled`, then the signal is consumed; `slot[d]` is not looked at (R190). -/
def blockOnGate (d : Dir) (t : Task) (s : State) : MicroOut :=
  if s.gate.get d = .signaled then .go t (consumeSignal d (waiterFor d t s) s) else .hold

/-- The `n` bytes a copy from the caller gives (R63): the input's bytes, and free bytes beyond them (log 28). -/
def sourceBytes (bs : List Byte) (n draw : Nat) : List Byte :=
  (List.range n).map fun i => bs.getD i (Config.callerByte draw i)

/-- The free values of `n` bytes from index `i` on, at a draw (R77, U12; log 16). -/
def raceBytes (draw i n : Nat) : List Byte := (List.range n).map fun j => Config.raceByte draw (i + j)

/-- WRITE's `CallerRead` (R231, R63): the bytes are stored next; a failing copy releases the buffer and ends in CopyFault. -/
def copyFromCaller (n : Word) (t : Task) (s : State) : MicroOut :=
  match s.source with
  | none => .go { t with todo := [.release .write], fin := .const (.error .copyFault) } s
  | some bs => .go { t with todo := .storeBytes 0 (sourceBytes bs n.toNat s.draws) :: t.todo } s.drawn

/-- The host stores bytes into the write buffer from index `i` on (R231). In the device's window, while the ready bit is 1, what is
stored are free values (R77, U12; log 16). -/
def storePart (i : Nat) (bs : List Byte) (s : State) : Except Refusal State :=
  match memWrite s .write i (if s.ready .write then raceBytes s.draws i bs.length else bs) with
  | .ok s' => .ok s'.drawn
  | .error r => .error r

/-- The host loads the `n` bytes of the read buffer that follow those it has loaded (R172). In the device's window, while the ready bit
is 1, the bytes are free values (R77, U12; log 16). -/
def loadPart (loaded : List Byte) (n : Nat) (s : State) : Except Refusal (List Byte) :=
  match memRead s .read loaded.length n with
  | .ok bs => .ok (loaded ++ if s.ready .read then raceBytes s.draws loaded.length n else bs)
  | .error r => .error r

/-- The rest of WRITE's `MemWrite` (R231). -/
def storeRest (i : Nat) (bs : List Byte) (t : Task) (s : State) : MicroOut :=
  match storePart i bs s with
  | .ok s' => .go t s'
  | .error r => .refuse r

/-- The number of bytes of the read buffer. -/
def readLength (s : State) : Nat := ((s.buf.get .read).map Buffer.len).getD 0

/-- The rest of COMPLETE_AND_RELEASE's `MemRead` (R172): exactly the buffer's length in all; the copy to the caller comes next. -/
def loadRest (loaded : List Byte) (t : Task) (s : State) : MicroOut :=
  match loadPart loaded (readLength s - loaded.length) s with
  | .ok data => .go { t with todo := .deliver data :: t.todo } s.drawn
  | .error r => .refuse r

/-- COMPLETE_AND_RELEASE's `CallerWrite` (R172): on success the bytes are returned, on failure the destination's content is free (R63,
U13; log 17) and the error is CopyFault; the release follows on both paths. -/
def copyToCaller (data : List Byte) (t : Task) (s : State) : MicroOut :=
  if s.destinationOk then .go { t with fin := .const (.bytes data), dst := some data } s
  else .go { t with fin := .const (.error .copyFault), dst := some (Config.partialCopy s.draws) } s.drawn

/-- The precondition of COMPLETE_AND_RELEASE (R172): AwaitingCompletion, issued by the session that owns the handle, and its WAIT.d for
this transfer has returned. -/
def mayComplete (d : Dir) (k : Nat) (s : State) : Bool :=
  decide (s.slot.get d = .awaitingCompletion) && decide (s.handle.get d = some { owner := sessionOf k, awaited := true })

/-- COMPLETE_AND_RELEASE before its copy and its release (R172): for W there is nothing to copy. -/
def completeTransfer (d : Dir) (k : Nat) (t : Task) (s : State) : MicroOut :=
  if mayComplete d k s then
    match d with
    | .write => .go { t with todo := .release .write :: t.todo, holds := transferOf .write s } s
    | .read => .go { t with todo := .loadBytes [] :: .release .read :: t.todo, holds := transferOf .read s } s
  else .refuse (.completionNotAwaited d)

/-- `release(d)`, never on an Unallocated slot (R173); the slot is still the procedure's own, since `micro` refuses this step of a procedure
whose transfer is gone (R175; log 21). -/
def releaseSlot (d : Dir) (t : Task) (s : State) : MicroOut :=
  if s.slot.get d = .unallocated then .refuse (.handleNotLive d) else .go { t with holds := none } (freeBuffer d s)

/-- Caller `k` is blocked in WAIT.d: the next step of its operation is the block (R174). -/
def blockedIn (k : Nat) (d : Dir) (s : State) : Bool :=
  decide ((s.callerOf k).task.map (fun t => t.todo.head?) = some (some (.waitBlock d)))

/-- A caller of another session than caller `k`'s has a WAIT.d outstanding (R282). -/
def foreignWait (k : Nat) (d : Dir) (s : State) : Bool := (s.waiter.get d).any fun j => decide (sessionOf j ≠ sessionOf k)

/-- The caller blocked in WAIT.d, if any, leaves it: its operation ends and returns nothing (log 20). -/
def abandonWait (d : Dir) (s : State) : State :=
  match s.waiter.get d with
  | none => s
  | some j =>
    if blockedIn j d s then s.setCaller j { task := none, result := none, dst := (s.callerOf j).dst } else s

/-- The session reset's three lines for one direction (R282), and the abandoning of its session's own WAIT.d. The spec does not say
whether other agents' steps can come between these lines; that they are one step is a DESIGN CHOICE (log 20). -/
def resetDirection (d : Dir) (s : State) : State :=
  (abandonWait d ((if s.slot.get d = .unallocated then s else freeBuffer d s).setGate d .pending)).setWaiter d none

/-- A step of a session reset, refused while another session has a WAIT outstanding (R282, U19; log 20). -/
def unlessForeignWait (k : Nat) (s : State) (out : MicroOut) : MicroOut :=
  if foreignWait k .read s then .refuse (.foreignWaiter .read)
  else if foreignWait k .write s then .refuse (.foreignWaiter .write)
  else out

/-- The step uses the transfer its procedure acts on (R175; log 21). WAIT.d's steps do not: a WAIT.d does not look at `slot[d]`, and with
no transfer is held until a SIGNAL.d (R190, D34). Nor do the steps that touch the caller's memory only, nor those of operations and
reactions that act on no transfer. -/
def needsTransfer : Micro → Bool
  | .write _ _ => true
  | .rmw _ _ => true
  | .putReady _ _ => true
  | .claim _ _ => false
  | .giveHandle _ _ => true
  | .checkPublished _ _ => true
  | .awaitCompletion _ => true
  | .storeBytes _ _ => true
  | .complete _ _ => true
  | .loadBytes _ => true
  | .release _ => true
  | .unwait _ => true
  | .waitEnter _ _ => false
  | .waitBlock _ => false
  | .read _ => false
  | .enter => false
  | .copyIn _ => false
  | .deliver _ => false
  | .ack _ => false
  | .signal _ => false
  | .resetDirection _ _ => false
  | .resetReg _ _ => false

/-- The effect of one step of a task, where the transfer it uses, if any, is live. -/
def act (m : Micro) (t : Task) (s : State) : MicroOut :=
  match m with
  | .read r => .go { t with vals := t.vals ++ [(regRead r s).1] } (regRead r s).2
  | .write r v =>
    match regWrite r v s with
    | .ok s' => .go t s'
    | .error e => .refuse e
  | .enter => .go t s
  | .rmw d u => readyBlock d u t s
  | .putReady d id => .go t (closeBlock d id s)
  | .claim d len => claim d len t s
  | .giveHandle d k => giveHandle d k t s
  | .checkPublished d k => checkPublished d k t s
  | .awaitCompletion d => startAwaiting d t s
  | .waitEnter d k => enterWait d k t s
  | .waitBlock d => blockOnGate d t s
  | .copyIn n => copyFromCaller n t s
  | .storeBytes i bs => storeRest i bs t s
  | .complete d k => completeTransfer d k t s
  | .loadBytes loaded => loadRest loaded t s
  | .deliver data => copyToCaller data t s
  | .release d => releaseSlot d t s
  | .unwait d => .go t (s.setWaiter d none)
  | .ack l => .go t (acknowledge l s)
  | .signal d => .go t (s.setGate d .signaled)
  | .resetDirection d k => unlessForeignWait k s (.go t (resetDirection d s))
  | .resetReg r k => unlessForeignWait k s (.go t (s.setReg r 0))

/-- The effect of one step of an agent whose remaining task, this step taken off, is `t`. A step that uses a transfer released since has
no meaning, also when another transfer has taken the slot (R175, U7; log 21). -/
def micro (m : Micro) (t : Task) (s : State) : MicroOut :=
  if needsTransfer m && !live t s then .refuse .transferGone else act m t s

/-! ## A turn: consecutive steps of one agent -/

/-- How a turn ends: the operation is done, with its result and what it delivered; the agent stops with steps left, preempted or
held; or a step has no meaning. -/
inductive Turn
  | done (r : Result) (dst : Option (List Byte)) (s : State)
  | paused (t : Task) (s : State)
  | refuse (r : Refusal)
deriving Repr

/-- At most `n` steps of a task, one after the other. -/
def runMicros : Nat → Task → State → Turn
  | 0, t, s => .paused t s
  | n + 1, t, s =>
    match t.todo with
    | [] => .done (makeResult t.fin t.vals) t.dst s
    | m :: rest =>
      match micro m { t with todo := rest } s with
      | .raise e s' => .done (.error e) t.dst s'
      | .hold => .paused t s
      | .refuse r => .refuse r
      | .go t' s' =>
        match t'.todo with
        | [] => .done (makeResult t'.fin t'.vals) t'.dst s'
        | _ :: _ => runMicros n t' s'

/-- More steps than any operation has: a turn of this length ends only when the operation is done or the agent is held. -/
def fullTurn : Nat := 16

/-- The number of steps of the next turn: all of them, or one more than the planned preemption says (log 11). -/
def turnLength (s : State) : Nat :=
  match s.quantum with
  | none => fullTurn
  | some n => n + 1

/-- A task that has its steps before it. -/
def newTask (todo : List Micro) (fin : Finish) : Task := { todo := todo, vals := [], fin := fin, dst := none, holds := none }

/-- Caller `k`'s operation returns `r`: the value goes to its caller and to nobody else (R240, R233). -/
def State.returns (s : State) (k : Nat) (r : Result) (dst : Option (List Byte)) : State :=
  (s.setCaller k { task := none, result := some r, dst := dst.getD (s.callerOf k).dst }).turnOver

/-- Caller `k` stops with steps of its operation left. -/
def State.pauses (s : State) (k : Nat) (t : Task) : State :=
  (s.setCaller k { task := some t, result := none, dst := (s.callerOf k).dst }).turnOver

/-- The end of caller `k`'s turn. -/
def endCallerTurn (k : Nat) : Turn → Host.Outcome State Fault Refusal
  | .done r dst s => .next (s.returns k r dst)
  | .paused t s => .next (s.pauses k t)
  | .refuse r => .refused r

/-- The end of the turn of a line's reaction: it returns nothing (R254). -/
def endHandlerTurn (l : Line) : Turn → Host.Outcome State Fault Refusal
  | .done _ _ s => .next (s.setHandler l none).turnOver
  | .paused t s => .next (s.setHandler l (some t)).turnOver
  | .refuse r => .refused r

/-- Caller `k` goes on with a task for one turn. -/
def runCallerTask (k : Nat) (t : Task) (s : State) : Host.Outcome State Fault Refusal :=
  endCallerTurn k (runMicros (turnLength s) t s)

/-- The caller whose turn it is begins an operation: each agent does one operation at a time (R8). -/
def beginOperation (todo : List Micro) (fin : Finish) (s : State) : Host.Outcome State Fault Refusal :=
  if s.idle s.caller then runCallerTask s.caller (newTask todo fin) s
  else .refused (.agentBusy (.caller s.caller))

/-- `raise E`: the operation ends at once and returns the error to its caller, with no state of the block changed (R240). -/
def raiseError (e : Err) (s : State) : Host.Outcome State Fault Refusal :=
  if s.idle s.caller then .next (s.returns s.caller (.error e) none)
  else .refused (.agentBusy (.caller s.caller))

/-- A line's reaction goes on for one turn. -/
def runHandlerTask (l : Line) (t : Task) (s : State) : Host.Outcome State Fault Refusal :=
  endHandlerTurn l (runMicros (turnLength s) t s)

/-- The entry of an event (R249, R253, R254): the line must be pending, and its last reaction ended; entry saves nothing and
changes nothing, and the reaction's steps follow. -/
def dispatchEvent (l : Line) (todo : List Micro) (s : State) : Host.Outcome State Fault Refusal :=
  if (s.handler.get l).isSome then .refused (.agentBusy (.handler l))
  else if s.pending.get l then runHandlerTask l (newTask todo (.const .ok)) s
  else .refused (.eventNotPending l)

end Sys2Proof.Machine
end

