-- ==== Sys2Proof/Machine/Commands.lean ====
section
/-! DEFINITION. The control commands (43_control_query.md R200 to R211), the response to an unknown code (R213), and RESET_ALL (R214). -/

namespace Sys2Proof.Machine

/-- GET_FILE_LENGTH (R200). The low word is read first. -/
def execGetFileLength (s : State) : Host.Outcome State Fault Refusal :=
  beginOperation [.read (.d .readFileLength), .read (.d .readFileLengthHi)] .fileLength s

/-- GET_ENC_PARAMS (R201). The words are read in ascending word number (D25). -/
def execGetEncParams (s : State) : Host.Outcome State Fault Refusal :=
  beginOperation [.read (.d .encParams1), .read (.d .encParams2), .read (.d .encParams3), .read (.d .encParams4),
    .read (.d .encParams5)] .encParams s

/-- GET_RESOLUTION (R202). -/
def execGetResolution (s : State) : Host.Outcome State Fault Refusal :=
  beginOperation [.read (.d .rawResolution)] .resolution s

/-- GET_MODE (R203). -/
def execGetMode (s : State) : Host.Outcome State Fault Refusal :=
  beginOperation [.read (.d .usecaseMode)] .mode s

/-- GET_FPS (R204). -/
def execGetFps (s : State) : Host.Outcome State Fault Refusal :=
  beginOperation [.read (.d .usecaseMode)] .fps s

/-- GET_FORMAT (R205). -/
def execGetFormat (s : State) : Host.Outcome State Fault Refusal :=
  beginOperation [.read (.d .usecaseMode)] .format s

/-- The steps of SET_d_OFFSET (R206, R207): the OFFSET register first, then the READY high half-word in an `atomic_d` block. -/
def setOffsetSteps (d : Dir) (o : DWord) : List Micro :=
  [.write (.s (offsetReg d)) ((offsetLo o).setWidth 32), .rmw d (.putOffHi (offsetHi o))]

/-- SET_READ_OFFSET (R206). -/
def execSetReadOffset (o : DWord) (s : State) : Host.Outcome State Fault Refusal :=
  beginOperation (setOffsetSteps .read o) (.const .ok) s

/-- SET_WRITE_OFFSET (R207). -/
def execSetWriteOffset (o : DWord) (s : State) : Host.Outcome State Fault Refusal :=
  beginOperation (setOffsetSteps .write o) (.const .ok) s

/-- SET_READ_TRANSFER_DONE (R208). -/
def execSetReadTransferDone (s : State) : Host.Outcome State Fault Refusal :=
  beginOperation [.write (.s .readTransferDone) doneMark] (.const .ok) s

/-- CLEAR_READ_TRANSFER_DONE (R209). -/
def execClearReadTransferDone (s : State) : Host.Outcome State Fault Refusal :=
  beginOperation [.write (.s .readTransferDone) doneClear] (.const .ok) s

/-- SET_WRITE_TRANSFER_DONE (R210). -/
def execSetWriteTransferDone (s : State) : Host.Outcome State Fault Refusal :=
  beginOperation [.write (.s .writeTransferDone) doneMark] (.const .ok) s

/-- CLEAR_WRITE_TRANSFER_DONE (R211). -/
def execClearWriteTransferDone (s : State) : Host.Outcome State Fault Refusal :=
  beginOperation [.write (.s .writeTransferDone) doneClear] (.const .ok) s

/-- An unknown command code at the command surface: UnsupportedOperation, no register read or written, no state of the block
changed (R213, R245). -/
def unknownCommand (s : State) : Host.Outcome State Fault Refusal := raiseError .unsupportedOperation s

/-- The eight registers RESET_ALL zeroes, in the order of R214 (D27). -/
def resetRegs : List SReg :=
  [.readTransferDone, .writeTransferDone, .readBufferReady, .readBufferOffset, .readBufferSize, .writeBufferReady,
    .writeBufferOffset, .writeBufferSize]

/-- The eight writes of RESET_ALL (R214). -/
def resetAllSteps : List Micro := resetRegs.map fun r => .write (.s r) 0

/-- RESET_ALL (R214). The spec gives it no returned value; that the caller's record shows `ok` is a DESIGN CHOICE (log 24). -/
def execResetAll (s : State) : Host.Outcome State Fault Refusal := beginOperation resetAllSteps (.const .ok) s

/-- The steps of the session reset by caller `k` (R282): the lines of the two directions, then the writes of RESET_ALL. -/
def sessionResetSteps (k : Nat) : List Micro :=
  .resetDirection .read k :: .resetDirection .write k :: resetRegs.map fun r => .resetReg r k

/-- The session reset performed when the session of caller `k` opens or closes (R282). The spec gives it no result; the record shows
`ok`, and keeps the delivered bytes (log 20). -/
def sessionReset (k : Nat) (s : State) : Host.Outcome State Fault Refusal :=
  if s.idle k then runCallerTask k (newTask (sessionResetSteps k) (.const .ok)) s
  else .refused (.agentBusy (.caller k))

end Sys2Proof.Machine
end

