-- ==== Sys2Proof/Machine/Transfer.lean ====
section
/-! DEFINITION. The transfer buffer procedures (41_transfer_buffer.md R170 to R174) and the completion gate (42_completion_gate.md
R190, R191). -/

namespace Sys2Proof.Machine

/-- A length above LEN_MAX is outside the operand's domain (D10). -/
def lengthTooLong (len : DWord) : Bool := decide (Config.lenMax < len.toNat)

/-- BEGIN_TRANSFER.d (R170). -/
def execBeginTransfer (d : Dir) (len : DWord) (s : State) : Host.Outcome State Fault Refusal :=
  if lengthTooLong len then .refused .lengthOutOfDomain
  else beginOperation [.claim d (len.setWidth 32), .giveHandle d s.caller] (.const (.handle d)) s

/-- MARK_READY.d (R171). That the caller's record shows `ok` is a DESIGN CHOICE (log 24). -/
def execMarkReady (d : Dir) (s : State) : Host.Outcome State Fault Refusal :=
  beginOperation [.checkPublished d s.caller, .rmw d .setReady, .awaitCompletion d] (.const .ok) s

/-- COMPLETE_AND_RELEASE.d (R172): for W it returns no bytes. -/
def execCompleteAndRelease (d : Dir) (s : State) : Host.Outcome State Fault Refusal :=
  beginOperation [.complete d s.caller] (.const (.bytes [])) s

/-- WAIT.d (R190). It returns without a value; that the caller's record then shows `ok` is a DESIGN CHOICE (log 24). -/
def execWait (d : Dir) (s : State) : Host.Outcome State Fault Refusal :=
  beginOperation [.waitEnter d s.caller, .waitBlock d] (.const .ok) s

/-- SIGNAL.d (R191), one step. Only the event context issues it (R259): `Machine/Schedule.lean`. -/
def execSignal (d : Dir) (s : State) : Host.Outcome State Fault Refusal := .next (s.setGate d .signaled)

/-- The steps of ABORT.d (R174). -/
def abortSteps (d : Dir) : List Micro := [.enter, .rmw d .clearReady, .unwait d, .release d]

/-- ABORT.d (R174), only where HAS_TIMEOUT: issued by the caller blocked in WAIT.d, in place of that WAIT's return, it ends the
operation that waits with Timeout. -/
def execAbort (d : Dir) (s : State) : Host.Outcome State Fault Refusal :=
  if s.hasTimeout then
    if s.slot.get d = .awaitingCompletion ∧ s.waiter.get d = some s.caller ∧ blockedIn s.caller d s then
      runCallerTask s.caller { newTask (abortSteps d) (.const (.error .timeout)) with holds := transferOf d s } s
    else .refused (.abortNotWaiting d)
  else .refused .abortAbsent

end Sys2Proof.Machine
end

