-- ==== Sys2Proof/Machine/Bulk.lean ====
section
/-! DEFINITION. The bulk transfer surface (44_bulk_transfer.md R230 to R232): compositions of the procedures, whose steps they list. -/

namespace Sys2Proof.Machine

/-- The checks of a bulk length (R230, R231, R241, R248, D10), before anything else: `N <= 0` is InvalidArgument, and a length above
LEN_MAX is outside the domain. -/
def withBulkLength (n : DWord) (run : Word → Host.Outcome State Fault Refusal) (s : State) :
    Host.Outcome State Fault Refusal :=
  if bulkLength n ≤ 0 then raiseError .invalidArgument s
  else if lengthTooLong n then .refused .lengthOutOfDomain
  else run (n.setWidth 32)

/-- READ N (R230): BEGIN_TRANSFER.R, MARK_READY.R, WAIT.R, COMPLETE_AND_RELEASE.R, whose bytes or error it returns. -/
def execRead (n : DWord) (s : State) : Host.Outcome State Fault Refusal :=
  withBulkLength n (fun len =>
    beginOperation
      [.claim .read len, .giveHandle .read s.caller, .checkPublished .read s.caller, .rmw .read .setReady, .awaitCompletion .read,
        .waitEnter .read s.caller, .waitBlock .read, .complete .read s.caller]
      (.const (.bytes [])) s) s

/-- WRITE N (R231): BEGIN_TRANSFER.W, the copy from the caller, MARK_READY.W, WAIT.W, COMPLETE_AND_RELEASE.W; returns ok (D28). -/
def execWrite (n : DWord) (s : State) : Host.Outcome State Fault Refusal :=
  withBulkLength n (fun len =>
    beginOperation
      [.claim .write len, .giveHandle .write s.caller, .copyIn len, .checkPublished .write s.caller, .rmw .write .setReady,
        .awaitCompletion .write, .waitEnter .write s.caller, .waitBlock .write, .complete .write s.caller]
      (.const .ok) s) s

/-- SEEK (R232): SET_READ_OFFSET. That the caller's record shows `ok` is a DESIGN CHOICE (log 24). -/
def execSeek (o : DWord) (s : State) : Host.Outcome State Fault Refusal :=
  beginOperation (setOffsetSteps .read o) (.const .ok) s

end Sys2Proof.Machine
end

