-- ==== Sys2Proof/Machine/CsrAccess.lean ====
section
/-! DEFINITION. The 48 register transactions (40_csr_access.md R120 to R167): one meaning per register and access kind, each the
one read or write transaction of its slot. -/

namespace Sys2Proof.Machine

/-- `CSR_RD off` (R110): one read transaction, whose value is returned to the caller. -/
def csrRead (r : Reg) (s : State) : Host.Outcome State Fault Refusal := beginOperation [.read r] .word s

/-- `CSR_WR off, v` (R111): one write transaction. The spec gives it no returned value; that the caller's record shows `ok` is a DESIGN
CHOICE (log 24). -/
def csrWrite (r : Reg) (v : Word) (s : State) : Host.Outcome State Fault Refusal := beginOperation [.write r v] (.const .ok) s

/-- CSR_RD READ_BUFFER_READY (R120). -/
def execCsrRdReadBufferReady (s : State) : Host.Outcome State Fault Refusal := csrRead (.s .readBufferReady) s

/-- CSR_WR READ_BUFFER_READY (R121). -/
def execCsrWrReadBufferReady (v : Word) (s : State) : Host.Outcome State Fault Refusal := csrWrite (.s .readBufferReady) v s

/-- CSR_RD READ_BUFFER_ADDR (R122). -/
def execCsrRdReadBufferAddr (s : State) : Host.Outcome State Fault Refusal := csrRead (.s .readBufferAddr) s

/-- CSR_WR READ_BUFFER_ADDR (R123). -/
def execCsrWrReadBufferAddr (v : Word) (s : State) : Host.Outcome State Fault Refusal := csrWrite (.s .readBufferAddr) v s

/-- CSR_RD READ_BUFFER_OFFSET (R124). -/
def execCsrRdReadBufferOffset (s : State) : Host.Outcome State Fault Refusal := csrRead (.s .readBufferOffset) s

/-- CSR_WR READ_BUFFER_OFFSET (R125). -/
def execCsrWrReadBufferOffset (v : Word) (s : State) : Host.Outcome State Fault Refusal := csrWrite (.s .readBufferOffset) v s

/-- CSR_RD READ_BUFFER_SIZE (R126). -/
def execCsrRdReadBufferSize (s : State) : Host.Outcome State Fault Refusal := csrRead (.s .readBufferSize) s

/-- CSR_WR READ_BUFFER_SIZE (R127). -/
def execCsrWrReadBufferSize (v : Word) (s : State) : Host.Outcome State Fault Refusal := csrWrite (.s .readBufferSize) v s

/-- CSR_RD WRITE_BUFFER_READY (R128). -/
def execCsrRdWriteBufferReady (s : State) : Host.Outcome State Fault Refusal := csrRead (.s .writeBufferReady) s

/-- CSR_WR WRITE_BUFFER_READY (R129). -/
def execCsrWrWriteBufferReady (v : Word) (s : State) : Host.Outcome State Fault Refusal := csrWrite (.s .writeBufferReady) v s

/-- CSR_RD WRITE_BUFFER_ADDR (R130). -/
def execCsrRdWriteBufferAddr (s : State) : Host.Outcome State Fault Refusal := csrRead (.s .writeBufferAddr) s

/-- CSR_WR WRITE_BUFFER_ADDR (R131). -/
def execCsrWrWriteBufferAddr (v : Word) (s : State) : Host.Outcome State Fault Refusal := csrWrite (.s .writeBufferAddr) v s

/-- CSR_RD WRITE_BUFFER_OFFSET (R132). -/
def execCsrRdWriteBufferOffset (s : State) : Host.Outcome State Fault Refusal := csrRead (.s .writeBufferOffset) s

/-- CSR_WR WRITE_BUFFER_OFFSET (R133). -/
def execCsrWrWriteBufferOffset (v : Word) (s : State) : Host.Outcome State Fault Refusal := csrWrite (.s .writeBufferOffset) v s

/-- CSR_RD WRITE_BUFFER_SIZE (R134). -/
def execCsrRdWriteBufferSize (s : State) : Host.Outcome State Fault Refusal := csrRead (.s .writeBufferSize) s

/-- CSR_WR WRITE_BUFFER_SIZE (R135). -/
def execCsrWrWriteBufferSize (v : Word) (s : State) : Host.Outcome State Fault Refusal := csrWrite (.s .writeBufferSize) v s

/-- CSR_RD READ_TRANSFER_DONE (R136). -/
def execCsrRdReadTransferDone (s : State) : Host.Outcome State Fault Refusal := csrRead (.s .readTransferDone) s

/-- CSR_WR READ_TRANSFER_DONE (R137). -/
def execCsrWrReadTransferDone (v : Word) (s : State) : Host.Outcome State Fault Refusal := csrWrite (.s .readTransferDone) v s

/-- CSR_RD WRITE_TRANSFER_DONE (R138). -/
def execCsrRdWriteTransferDone (s : State) : Host.Outcome State Fault Refusal := csrRead (.s .writeTransferDone) s

/-- CSR_WR WRITE_TRANSFER_DONE (R139). -/
def execCsrWrWriteTransferDone (v : Word) (s : State) : Host.Outcome State Fault Refusal := csrWrite (.s .writeTransferDone) v s

/-- CSR_RD READ_FILE_LENGTH_HI (R140). -/
def execCsrRdReadFileLengthHi (s : State) : Host.Outcome State Fault Refusal := csrRead (.d .readFileLengthHi) s

/-- CSR_WR READ_FILE_LENGTH_HI (R141). -/
def execCsrWrReadFileLengthHi (v : Word) (s : State) : Host.Outcome State Fault Refusal := csrWrite (.d .readFileLengthHi) v s

/-- CSR_RD READ_FILE_LENGTH (R142). -/
def execCsrRdReadFileLength (s : State) : Host.Outcome State Fault Refusal := csrRead (.d .readFileLength) s

/-- CSR_WR READ_FILE_LENGTH (R143). -/
def execCsrWrReadFileLength (v : Word) (s : State) : Host.Outcome State Fault Refusal := csrWrite (.d .readFileLength) v s

/-- CSR_RD READ_BUFFER_TRANSFER_DONE (R144). -/
def execCsrRdReadBufferTransferDone (s : State) : Host.Outcome State Fault Refusal := csrRead (.a .readBufferTransferDone) s

/-- CSR_WR READ_BUFFER_TRANSFER_DONE (R145). -/
def execCsrWrReadBufferTransferDone (v : Word) (s : State) : Host.Outcome State Fault Refusal := csrWrite (.a .readBufferTransferDone) v s

/-- CSR_RD WRITE_BUFFER_TRANSFER_DONE (R146). -/
def execCsrRdWriteBufferTransferDone (s : State) : Host.Outcome State Fault Refusal := csrRead (.a .writeBufferTransferDone) s

/-- CSR_WR WRITE_BUFFER_TRANSFER_DONE (R147). -/
def execCsrWrWriteBufferTransferDone (v : Word) (s : State) : Host.Outcome State Fault Refusal := csrWrite (.a .writeBufferTransferDone) v s

/-- CSR_RD ENC_PARAMS_1 (R148). -/
def execCsrRdEncParams1 (s : State) : Host.Outcome State Fault Refusal := csrRead (.d .encParams1) s

/-- CSR_WR ENC_PARAMS_1 (R149). -/
def execCsrWrEncParams1 (v : Word) (s : State) : Host.Outcome State Fault Refusal := csrWrite (.d .encParams1) v s

/-- CSR_RD ENC_PARAMS_2 (R150). -/
def execCsrRdEncParams2 (s : State) : Host.Outcome State Fault Refusal := csrRead (.d .encParams2) s

/-- CSR_WR ENC_PARAMS_2 (R151). -/
def execCsrWrEncParams2 (v : Word) (s : State) : Host.Outcome State Fault Refusal := csrWrite (.d .encParams2) v s

/-- CSR_RD RAW_RESOLUTION (R152). -/
def execCsrRdRawResolution (s : State) : Host.Outcome State Fault Refusal := csrRead (.d .rawResolution) s

/-- CSR_WR RAW_RESOLUTION (R153). -/
def execCsrWrRawResolution (v : Word) (s : State) : Host.Outcome State Fault Refusal := csrWrite (.d .rawResolution) v s

/-- CSR_RD USECASE_MODE (R154). -/
def execCsrRdUsecaseMode (s : State) : Host.Outcome State Fault Refusal := csrRead (.d .usecaseMode) s

/-- CSR_WR USECASE_MODE (R155). -/
def execCsrWrUsecaseMode (v : Word) (s : State) : Host.Outcome State Fault Refusal := csrWrite (.d .usecaseMode) v s

/-- CSR_RD ENC_PARAMS_3 (R156). -/
def execCsrRdEncParams3 (s : State) : Host.Outcome State Fault Refusal := csrRead (.d .encParams3) s

/-- CSR_WR ENC_PARAMS_3 (R157). -/
def execCsrWrEncParams3 (v : Word) (s : State) : Host.Outcome State Fault Refusal := csrWrite (.d .encParams3) v s

/-- CSR_RD ENC_PARAMS_4 (R158). -/
def execCsrRdEncParams4 (s : State) : Host.Outcome State Fault Refusal := csrRead (.d .encParams4) s

/-- CSR_WR ENC_PARAMS_4 (R159). -/
def execCsrWrEncParams4 (v : Word) (s : State) : Host.Outcome State Fault Refusal := csrWrite (.d .encParams4) v s

/-- CSR_RD ENC_PARAMS_5 (R160). -/
def execCsrRdEncParams5 (s : State) : Host.Outcome State Fault Refusal := csrRead (.d .encParams5) s

/-- CSR_WR ENC_PARAMS_5 (R161). -/
def execCsrWrEncParams5 (v : Word) (s : State) : Host.Outcome State Fault Refusal := csrWrite (.d .encParams5) v s

/-- CSR_RD READ_BUFFER_TRANSFER_DONE_INTR (R162). -/
def execCsrRdReadBufferTransferDoneIntr (s : State) : Host.Outcome State Fault Refusal := csrRead (.a .readBufferTransferDoneIntr) s

/-- CSR_WR READ_BUFFER_TRANSFER_DONE_INTR (R163). -/
def execCsrWrReadBufferTransferDoneIntr (v : Word) (s : State) : Host.Outcome State Fault Refusal := csrWrite (.a .readBufferTransferDoneIntr) v s

/-- CSR_RD WRITE_BUFFER_TRANSFER_DONE_INTR (R164). -/
def execCsrRdWriteBufferTransferDoneIntr (s : State) : Host.Outcome State Fault Refusal := csrRead (.a .writeBufferTransferDoneIntr) s

/-- CSR_WR WRITE_BUFFER_TRANSFER_DONE_INTR (R165). -/
def execCsrWrWriteBufferTransferDoneIntr (v : Word) (s : State) : Host.Outcome State Fault Refusal := csrWrite (.a .writeBufferTransferDoneIntr) v s

/-- CSR_RD HOST_DONE_INTR (R166). -/
def execCsrRdHostDoneIntr (s : State) : Host.Outcome State Fault Refusal := csrRead (.a .hostDoneIntr) s

/-- CSR_WR HOST_DONE_INTR (R167). -/
def execCsrWrHostDoneIntr (v : Word) (s : State) : Host.Outcome State Fault Refusal := csrWrite (.a .hostDoneIntr) v s

end Sys2Proof.Machine
end

