-- ==== Sys2Proof/Machine/Events.lean ====
section
/-! DEFINITION. The three event dispatches (60_exceptions.md R250 to R252). -/

namespace Sys2Proof.Machine

/-- The steps of a completion reaction (R250, R251): clear the ready bit, acknowledge, signal. -/
def completionSteps (d : Dir) : List Micro :=
  [.enter, .rmw d .clearReady, .ack (completionLine d), .signal d]

/-- EV_READ_COMPLETE (R250). -/
def execEvReadComplete (s : State) : Host.Outcome State Fault Refusal := dispatchEvent .rc (completionSteps .read) s

/-- EV_WRITE_COMPLETE (R251). -/
def execEvWriteComplete (s : State) : Host.Outcome State Fault Refusal := dispatchEvent .wc (completionSteps .write) s

/-- EV_HOST_DONE (R252): acknowledge, then clear the read and the write done flag (D30). -/
def execEvHostDone (s : State) : Host.Outcome State Fault Refusal :=
  dispatchEvent .hd [.ack .hd, .write (.s .readTransferDone) doneClear, .write (.s .writeTransferDone) doneClear] s

end Sys2Proof.Machine
end

