-- ==== Sys2Proof/Machine/Dispatch.lean ====
section
/-! DEFINITION. exec: one arm per constructor of Instr, each one direct call of the instruction's meaning. -/

namespace Sys2Proof.Machine

def exec (i : Instr) (s : State) : Host.Outcome State Fault Refusal :=
  match i with
  | .csrRdReadBufferReady => Sys2Proof.Machine.execCsrRdReadBufferReady s
  | .csrWrReadBufferReady v => Sys2Proof.Machine.execCsrWrReadBufferReady v s
  | .csrRdReadBufferAddr => Sys2Proof.Machine.execCsrRdReadBufferAddr s
  | .csrWrReadBufferAddr v => Sys2Proof.Machine.execCsrWrReadBufferAddr v s
  | .csrRdReadBufferOffset => Sys2Proof.Machine.execCsrRdReadBufferOffset s
  | .csrWrReadBufferOffset v => Sys2Proof.Machine.execCsrWrReadBufferOffset v s
  | .csrRdReadBufferSize => Sys2Proof.Machine.execCsrRdReadBufferSize s
  | .csrWrReadBufferSize v => Sys2Proof.Machine.execCsrWrReadBufferSize v s
  | .csrRdWriteBufferReady => Sys2Proof.Machine.execCsrRdWriteBufferReady s
  | .csrWrWriteBufferReady v => Sys2Proof.Machine.execCsrWrWriteBufferReady v s
  | .csrRdWriteBufferAddr => Sys2Proof.Machine.execCsrRdWriteBufferAddr s
  | .csrWrWriteBufferAddr v => Sys2Proof.Machine.execCsrWrWriteBufferAddr v s
  | .csrRdWriteBufferOffset => Sys2Proof.Machine.execCsrRdWriteBufferOffset s
  | .csrWrWriteBufferOffset v => Sys2Proof.Machine.execCsrWrWriteBufferOffset v s
  | .csrRdWriteBufferSize => Sys2Proof.Machine.execCsrRdWriteBufferSize s
  | .csrWrWriteBufferSize v => Sys2Proof.Machine.execCsrWrWriteBufferSize v s
  | .csrRdReadTransferDone => Sys2Proof.Machine.execCsrRdReadTransferDone s
  | .csrWrReadTransferDone v => Sys2Proof.Machine.execCsrWrReadTransferDone v s
  | .csrRdWriteTransferDone => Sys2Proof.Machine.execCsrRdWriteTransferDone s
  | .csrWrWriteTransferDone v => Sys2Proof.Machine.execCsrWrWriteTransferDone v s
  | .csrRdReadFileLengthHi => Sys2Proof.Machine.execCsrRdReadFileLengthHi s
  | .csrWrReadFileLengthHi v => Sys2Proof.Machine.execCsrWrReadFileLengthHi v s
  | .csrRdReadFileLength => Sys2Proof.Machine.execCsrRdReadFileLength s
  | .csrWrReadFileLength v => Sys2Proof.Machine.execCsrWrReadFileLength v s
  | .csrRdReadBufferTransferDone => Sys2Proof.Machine.execCsrRdReadBufferTransferDone s
  | .csrWrReadBufferTransferDone v => Sys2Proof.Machine.execCsrWrReadBufferTransferDone v s
  | .csrRdWriteBufferTransferDone => Sys2Proof.Machine.execCsrRdWriteBufferTransferDone s
  | .csrWrWriteBufferTransferDone v => Sys2Proof.Machine.execCsrWrWriteBufferTransferDone v s
  | .csrRdEncParams1 => Sys2Proof.Machine.execCsrRdEncParams1 s
  | .csrWrEncParams1 v => Sys2Proof.Machine.execCsrWrEncParams1 v s
  | .csrRdEncParams2 => Sys2Proof.Machine.execCsrRdEncParams2 s
  | .csrWrEncParams2 v => Sys2Proof.Machine.execCsrWrEncParams2 v s
  | .csrRdRawResolution => Sys2Proof.Machine.execCsrRdRawResolution s
  | .csrWrRawResolution v => Sys2Proof.Machine.execCsrWrRawResolution v s
  | .csrRdUsecaseMode => Sys2Proof.Machine.execCsrRdUsecaseMode s
  | .csrWrUsecaseMode v => Sys2Proof.Machine.execCsrWrUsecaseMode v s
  | .csrRdEncParams3 => Sys2Proof.Machine.execCsrRdEncParams3 s
  | .csrWrEncParams3 v => Sys2Proof.Machine.execCsrWrEncParams3 v s
  | .csrRdEncParams4 => Sys2Proof.Machine.execCsrRdEncParams4 s
  | .csrWrEncParams4 v => Sys2Proof.Machine.execCsrWrEncParams4 v s
  | .csrRdEncParams5 => Sys2Proof.Machine.execCsrRdEncParams5 s
  | .csrWrEncParams5 v => Sys2Proof.Machine.execCsrWrEncParams5 v s
  | .csrRdReadBufferTransferDoneIntr => Sys2Proof.Machine.execCsrRdReadBufferTransferDoneIntr s
  | .csrWrReadBufferTransferDoneIntr v => Sys2Proof.Machine.execCsrWrReadBufferTransferDoneIntr v s
  | .csrRdWriteBufferTransferDoneIntr => Sys2Proof.Machine.execCsrRdWriteBufferTransferDoneIntr s
  | .csrWrWriteBufferTransferDoneIntr v => Sys2Proof.Machine.execCsrWrWriteBufferTransferDoneIntr v s
  | .csrRdHostDoneIntr => Sys2Proof.Machine.execCsrRdHostDoneIntr s
  | .csrWrHostDoneIntr v => Sys2Proof.Machine.execCsrWrHostDoneIntr v s
  | .getFileLength => Sys2Proof.Machine.execGetFileLength s
  | .getEncParams => Sys2Proof.Machine.execGetEncParams s
  | .getResolution => Sys2Proof.Machine.execGetResolution s
  | .getMode => Sys2Proof.Machine.execGetMode s
  | .getFps => Sys2Proof.Machine.execGetFps s
  | .getFormat => Sys2Proof.Machine.execGetFormat s
  | .setReadOffset o => Sys2Proof.Machine.execSetReadOffset o s
  | .setWriteOffset o => Sys2Proof.Machine.execSetWriteOffset o s
  | .setReadTransferDone => Sys2Proof.Machine.execSetReadTransferDone s
  | .clearReadTransferDone => Sys2Proof.Machine.execClearReadTransferDone s
  | .setWriteTransferDone => Sys2Proof.Machine.execSetWriteTransferDone s
  | .clearWriteTransferDone => Sys2Proof.Machine.execClearWriteTransferDone s
  | .beginTransfer d len => Sys2Proof.Machine.execBeginTransfer d len s
  | .markReady d => Sys2Proof.Machine.execMarkReady d s
  | .completeAndRelease d => Sys2Proof.Machine.execCompleteAndRelease d s
  | .wait d => Sys2Proof.Machine.execWait d s
  | .signal d => Sys2Proof.Machine.execSignal d s
  | .abort d => Sys2Proof.Machine.execAbort d s
  | .resetAll => Sys2Proof.Machine.execResetAll s
  | .read n => Sys2Proof.Machine.execRead n s
  | .write n => Sys2Proof.Machine.execWrite n s
  | .seek o => Sys2Proof.Machine.execSeek o s
  | .evReadComplete => Sys2Proof.Machine.execEvReadComplete s
  | .evWriteComplete => Sys2Proof.Machine.execEvWriteComplete s
  | .evHostDone => Sys2Proof.Machine.execEvHostDone s

end Sys2Proof.Machine
end

