-- ==== Sys2Proof/Machine/Schedule.lean ====
section
/-! DEFINITION. The moves of the schedule: issuing an operation, going on with one, preemption, session open and close, and the
environment's moves (00_scope.md R4 to R9). `Machine/Step.lean` takes the next one. -/

namespace Sys2Proof.Machine

/-- The operations only the event context performs: SIGNAL and the event dispatches (R5, R191, R259). -/
def eventOnly (i : Instr) : Bool := decide (i = .signal .read ∨ i = .signal .write ∨ i.surface = .event)

/-- Caller `k` issues the operation of these bytes at a surface. Bytes that name no operation are refused, but an unknown code at
the command surface returns UnsupportedOperation (R103, R108, R213); a caller performs no operation of the event context (R259). -/
def issue (k : Nat) (surface : Surface) (bytes : List Byte) (s : State) : Host.Outcome State Fault Refusal :=
  match decode surface bytes with
  | .ok i => if eventOnly i then .refused .notAnOrdinaryOperation else exec i { s with caller := k }
  | .error .unknownCommand => unknownCommand { s with caller := k }
  | .error e => .refused (.undecodable e)

/-- The event context issues the operation of these bytes: an event dispatch or a SIGNAL (R5, R191, R259; log 12). -/
def issueByEvent (surface : Surface) (bytes : List Byte) (s : State) : Host.Outcome State Fault Refusal :=
  match decode surface bytes with
  | .ok i => if eventOnly i then exec i s else .refused .notAnEventOperation
  | .error e => .refused (.undecodable e)

/-- An agent goes on with its operation in progress; one that has none, or is held (R195), has no step and nothing changes. -/
def resume (a : Agent) (s : State) : Host.Outcome State Fault Refusal :=
  match a with
  | .caller k =>
    match (s.callerOf k).task with
    | none => .next s.turnOver
    | some t => runCallerTask k t s
  | .handler l =>
    match s.handler.get l with
    | none => .next s.turnOver
    | some t => runHandlerTask l t s

/-- A task whose next step is an `atomic_d` block, with that block's read made: its write comes next. A block of `d` that was open makes
its write before that read (R262), and the new one is open (R263). -/
def openedTask (t : Task) (s : State) : Option (Task × State) :=
  if live t s then
    match t.todo with
    | .rmw d u :: rest =>
      some ({ t with todo := .putReady d s.draws :: rest },
        ((closeOpen d s).setOpened d (some
          { id := s.draws, word := applyReadyUpdate u ((closeOpen d s).reg (readyReg d)), forTransfer := t.holds.isSome })).drawn)
    | _ => none
  else none

/-- An agent makes the read of its next `atomic_d` block only: what the exclusion does not cover, a raw write, a RESET_ALL or the
device, can come before the write (R263). -/
def openBlock (a : Agent) (s : State) : Host.Outcome State Fault Refusal :=
  match a with
  | .caller k =>
    match (s.callerOf k).task.bind fun t => openedTask t s with
    | none => .refused (.blockNotNext a)
    | some (t, s') => .next (s'.pauses k t)
  | .handler l =>
    match (s.handler.get l).bind fun t => openedTask t s with
    | none => .refused (.blockNotNext a)
    | some (t, s') => .next (s'.setHandler l (some t)).turnOver

/-- A task whose next step is a copy, with only the next `m` bytes of it made: the rest of the copy comes next (R67). -/
def partTask (m : Nat) (t : Task) (s : State) : Except Refusal (Option (Task × State)) :=
  if live t s then
    match t.todo with
    | .storeBytes i bs :: rest =>
      match storePart i (bs.take m) s with
      | .ok s' => .ok (some ({ t with todo := .storeBytes (i + (bs.take m).length) (bs.drop m) :: rest }, s'))
      | .error r => .error r
    | .loadBytes loaded :: rest =>
      match loadPart loaded m s with
      | .ok data => .ok (some ({ t with todo := .loadBytes data :: rest }, s.drawn))
      | .error r => .error r
    | _ => .ok none
  else .error .transferGone

/-- Caller `k` makes the next `m` bytes of its copy: other agents' steps can come between any two bytes (R67). -/
def partCopy (k m : Nat) (s : State) : Host.Outcome State Fault Refusal :=
  match (s.callerOf k).task with
  | none => .refused (.copyNotNext k)
  | some t =>
    match partTask m t s with
    | .ok (some (t', s')) => .next (s'.pauses k t')
    | .ok none => .refused (.copyNotNext k)
    | .error r => .refused r

/-- The device may access bytes `off` to `off + n - 1` from the published address on, in the buffer `b` of direction `d`: the ready
bit is 1, and the bytes lie in `[ADDR_d, ADDR_d + SIZE_d)` and in the live buffer (R7 duty iii, R77). -/
def deviceMayAccess (s : State) (d : Dir) (b : Buffer) (off n : Nat) : Bool :=
  s.ready d && decide (off + n ≤ (s.reg (sizeReg d)).toNat)
    && decide (b.devAddr.toNat ≤ (s.reg (addrReg d)).toNat + off)
    && decide ((s.reg (addrReg d)).toNat + off + n ≤ b.devAddr.toNat + b.len)

/-- The index in the buffer of the byte at `ADDR_d + off` (R61: byte `i` is at `dev_addr + i`). -/
def deviceIndex (s : State) (d : Dir) (b : Buffer) (off : Nat) : Nat :=
  (s.reg (addrReg d)).toNat + off - b.devAddr.toNat

/-- The device writes bytes into the offered read buffer (R7). -/
def deviceFill (off : Nat) (bytes : List Byte) (s : State) : Host.Outcome State Fault Refusal :=
  match s.buf.get .read with
  | none => .refused (.deviceOutsideWindow .read)
  | some b =>
    if deviceMayAccess s .read b off bytes.length then
      .next (s.setBuf .read (some (b.store (deviceIndex s .read b off) bytes)))
    else .refused (.deviceOutsideWindow .read)

/-- The device reads bytes of the offered write buffer (R7, R75). -/
def deviceFetch (off n : Nat) (s : State) : Host.Outcome State Fault Refusal :=
  match s.buf.get .write with
  | none => .refused (.deviceOutsideWindow .write)
  | some b =>
    if deviceMayAccess s .write b off n then
      .next { s with seenBytes := b.bytes (deviceIndex s .write b off) n }
    else .refused (.deviceOutsideWindow .write)

/-- One step of the device (R7). It never writes a class S register (duty ii). -/
def deviceMove (m : DeviceMove) (s : State) : Host.Outcome State Fault Refusal :=
  match m with
  | .drive r v => .next (s.setStatus r v)
  | .raise l => .next (s.setPending l true)
  | .readRegister r => .next { (regRead r s).2 with seenWord := some (regRead r s).1 }
  | .fill off bytes => deviceFill off bytes s
  | .fetch off n => deviceFetch off n s

/-- One move of the schedule. -/
def takeMove (m : Move) (s : State) : Host.Outcome State Fault Refusal :=
  match m with
  | .issue k surface bytes => issue k surface bytes s
  | .issueByEvent surface bytes => issueByEvent surface bytes s
  | .resume a => resume a s
  | .preempt n => .next { s with quantum := some n }
  | .openBlock a => openBlock a s
  | .partCopy k m => partCopy k m s
  | .sessionReset k => sessionReset k s
  | .device m => deviceMove m s
  | .allocator answer => .next { s with allocator := answer }
  | .source bytes => .next { s with source := bytes }
  | .destination succeeds => .next { s with destinationOk := succeeds }

/-- The machine takes the next move of its schedule; with none left nothing changes (R266; log 25). -/
def takeNext (s : State) : Host.Outcome State Fault Refusal :=
  match s.schedule with
  | [] => .next s
  | m :: rest => takeMove m { s with schedule := rest }

/-- A caller with no operation in progress: the one whose turn it is, or one beyond all that have issued something. -/
def freeCaller (s : State) : Nat :=
  if s.idle s.caller then s.caller else s.callers.foldr (fun p n => max (p.1 + 1) n) 0

/-- The caller that may issue the operation: for ABORT.d the one that waits on `d`, else one with nothing in progress. -/
def issuerOf (i : Option Instr) (s : State) : Nat :=
  match i with
  | some (.abort d) => (s.waiter.get d).getD s.caller
  | _ => freeCaller s

/-- What an event needs to be dispatched: its line pending (R249). -/
def withLineRaised (i : Option Instr) (s : State) : State :=
  match i with
  | some .evReadComplete => s.setPending .rc true
  | some .evWriteComplete => s.setPending .wc true
  | some .evHostDone => s.setPending .hd true
  | _ => s

/-- The move by which the operation is issued: the event context's, or a caller's. -/
def issueMove (i : Option Instr) (surface : Surface) (bytes : List Byte) (s : State) : Move :=
  if i.any eventOnly then .issueByEvent surface bytes else .issue (issuerOf i s) surface bytes

/-- The state whose next move issues the operation whose bits are `w mod 2^nbits` (log 1). -/
def withOperation (s : State) (nbits w : Nat) : State :=
  { withLineRaised (decodeTableWord nbits w) s with
    schedule :=
      issueMove (decodeTableWord nbits w) (surfaceOf nbits (w % 2 ^ nbits)) (tableBytes nbits w) s :: s.schedule }

end Sys2Proof.Machine
end

