-- ==== Sys2Proof/Machine/Step.lean ====
section
/-! DEFINITION. The step of the machine: the next move of the schedule. -/

namespace Sys2Proof.Machine

/-- One step (R8, R70). -/
def step (s : State) : Host.Outcome State Fault Refusal := takeNext s

/-- The state whose very next step issues and runs the opcode-table word: it stands at the head of the schedule (log 1). -/
def State.withFetchWord (s : State) (nbits w : Nat) : State := withOperation s nbits w

end Sys2Proof.Machine
end

