-- ==== Sys2Proof/Safety.lean ====
section
/-! DEFINITION. What a state of a proper run satisfies, in the terms the claims use (10_state.md R46, 20_memory.md R62). -/

namespace Sys2Proof.Machine

/-- R46 (b) for one direction, the well-formedness of its buffer and of its handle: the slot is Unallocated exactly when there is no
buffer; a buffer has a length in 1..LEN_MAX and a canonical content that lies inside it; a handle is live only while there is a buffer,
and its WAIT has returned only where the slot awaits completion (R172, R175). -/
def State.directionWf (s : State) (d : Dir) : Bool :=
  decide (s.slot.get d = .unallocated ↔ s.buf.get d = none) && (s.buf.get d).all Buffer.wf
    && (s.handle.get d).all fun h =>
      decide (s.slot.get d ≠ .unallocated) && (!h.awaited || decide (s.slot.get d = .awaitingCompletion))

/-- The invariant of the model: both directions are well formed, and the callers' records are in canonical order. -/
def State.wf (s : State) : Bool := s.directionWf .read && s.directionWf .write && risingKeys s.callers

/-- R46 (c): the bits the spec reserves in READY and OFFSET are zero in both directions, and those of READY in the word an open
`atomic_d` block is about to write. -/
def State.reservedZero (s : State) : Bool :=
  decide (s.reservedBits .read = 0) && decide (s.reservedBits .write = 0) && decide (s.offsetTop .read = 0)
    && decide (s.offsetTop .write = 0) && (s.opened.r.all fun o => decide (o.word.extractLsb' 1 15 = 0))
    && (s.opened.w.all fun o => decide (o.word.extractLsb' 1 15 = 0))

/-- A step stores no word with reserved bits set in a READY or an OFFSET register (R105). -/
def keepsReserved (m : Micro) : Bool :=
  match m with
  | .write (.s .readBufferReady) v => decide (v.extractLsb' 1 15 = 0)
  | .write (.s .writeBufferReady) v => decide (v.extractLsb' 1 15 = 0)
  | .write (.s .readBufferOffset) v => decide (v.extractLsb' 16 16 = 0)
  | .write (.s .writeBufferOffset) v => decide (v.extractLsb' 16 16 = 0)
  | _ => true

/-- All steps of all operations and reactions in progress satisfy a predicate. -/
def State.allSteps (s : State) (p : Micro → Bool) : Prop :=
  (∀ k t, (s.callerOf k).task = some t → t.todo.all p = true) ∧ (∀ l t, s.handler.get l = some t → t.todo.all p = true)

/-- R46 (d) for one direction: the published buffer is what the device reads in ADDR_d and SIZE_d, and it is offered. -/
def State.offered (s : State) (d : Dir) (b : Buffer) : Prop :=
  s.ready d = true ∧ s.reg (addrReg d) = b.devAddr ∧ (s.reg (sizeReg d)).toNat = b.len

/-- The number whose bits are an operation's bytes, lowest byte first (the numbering of spec/opcode_table.json). -/
def bytesNumber (bytes : List Byte) : Nat := bytes.foldr (fun b n => b.toNat + 256 * n) 0

/-- The dispatch reaction of a line (R250 to R252). -/
def eventOf : Line → Instr
  | .rc => .evReadComplete
  | .wc => .evWriteComplete
  | .hd => .evHostDone

/-- The completion event of a direction. -/
def completionOf : Dir → Instr
  | .read => .evReadComplete
  | .write => .evWriteComplete

/-- The offset command of a direction (R206, R207). -/
def setOffsetOf : Dir → DWord → Instr
  | .read, o => .setReadOffset o
  | .write, o => .setWriteOffset o

/-- The class S registers an operation may write, from its rule: the register frame leaves out these and no others. -/
def writtenRegs (i : Instr) : List SReg :=
  match i with
  | .csrWrReadBufferReady _ => [.readBufferReady]
  | .csrWrReadBufferAddr _ => [.readBufferAddr]
  | .csrWrReadBufferOffset _ => [.readBufferOffset]
  | .csrWrReadBufferSize _ => [.readBufferSize]
  | .csrWrWriteBufferReady _ => [.writeBufferReady]
  | .csrWrWriteBufferAddr _ => [.writeBufferAddr]
  | .csrWrWriteBufferOffset _ => [.writeBufferOffset]
  | .csrWrWriteBufferSize _ => [.writeBufferSize]
  | .csrWrReadTransferDone _ => [.readTransferDone]
  | .csrWrWriteTransferDone _ => [.writeTransferDone]
  | .setReadOffset _ => [.readBufferOffset, .readBufferReady]
  | .setWriteOffset _ => [.writeBufferOffset, .writeBufferReady]
  | .seek _ => [.readBufferOffset, .readBufferReady]
  | .setReadTransferDone => [.readTransferDone]
  | .clearReadTransferDone => [.readTransferDone]
  | .setWriteTransferDone => [.writeTransferDone]
  | .clearWriteTransferDone => [.writeTransferDone]
  | .beginTransfer d _ => [addrReg d, sizeReg d]
  | .markReady d => [readyReg d]
  | .abort d => [readyReg d]
  | .resetAll =>
    [.readTransferDone, .writeTransferDone, .readBufferReady, .readBufferOffset, .readBufferSize, .writeBufferReady,
      .writeBufferOffset, .writeBufferSize]
  | .read _ => [.readBufferAddr, .readBufferSize, .readBufferReady]
  | .write _ => [.writeBufferAddr, .writeBufferSize, .writeBufferReady]
  | .evReadComplete => [.readBufferReady]
  | .evWriteComplete => [.writeBufferReady]
  | .evHostDone => [.readTransferDone, .writeTransferDone]
  | .csrRdReadBufferReady | .csrRdReadBufferAddr | .csrRdReadBufferOffset | .csrRdReadBufferSize | .csrRdWriteBufferReady
  | .csrRdWriteBufferAddr | .csrRdWriteBufferOffset | .csrRdWriteBufferSize | .csrRdReadTransferDone
  | .csrRdWriteTransferDone | .csrRdReadFileLengthHi | .csrWrReadFileLengthHi _ | .csrRdReadFileLength
  | .csrWrReadFileLength _ | .csrRdReadBufferTransferDone | .csrWrReadBufferTransferDone _ | .csrRdWriteBufferTransferDone
  | .csrWrWriteBufferTransferDone _ | .csrRdEncParams1 | .csrWrEncParams1 _ | .csrRdEncParams2 | .csrWrEncParams2 _
  | .csrRdRawResolution | .csrWrRawResolution _ | .csrRdUsecaseMode | .csrWrUsecaseMode _ | .csrRdEncParams3
  | .csrWrEncParams3 _ | .csrRdEncParams4 | .csrWrEncParams4 _ | .csrRdEncParams5 | .csrWrEncParams5 _
  | .csrRdReadBufferTransferDoneIntr | .csrWrReadBufferTransferDoneIntr _ | .csrRdWriteBufferTransferDoneIntr
  | .csrWrWriteBufferTransferDoneIntr _ | .csrRdHostDoneIntr | .csrWrHostDoneIntr _ | .getFileLength | .getEncParams
  | .getResolution | .getMode | .getFps | .getFormat | .completeAndRelease _ | .wait _ | .signal _ => []

/-- The operations whose rules change a slot or a buffer (R40, R41). -/
def changesSlot (i : Instr) : Bool :=
  match i with
  | .beginTransfer _ _ | .markReady _ | .completeAndRelease _ | .abort _ | .read _ | .write _ => true
  | .csrRdReadBufferReady | .csrWrReadBufferReady _ | .csrRdReadBufferAddr | .csrWrReadBufferAddr _ | .csrRdReadBufferOffset
  | .csrWrReadBufferOffset _ | .csrRdReadBufferSize | .csrWrReadBufferSize _ | .csrRdWriteBufferReady
  | .csrWrWriteBufferReady _ | .csrRdWriteBufferAddr | .csrWrWriteBufferAddr _ | .csrRdWriteBufferOffset
  | .csrWrWriteBufferOffset _ | .csrRdWriteBufferSize | .csrWrWriteBufferSize _ | .csrRdReadTransferDone
  | .csrWrReadTransferDone _ | .csrRdWriteTransferDone | .csrWrWriteTransferDone _ | .csrRdReadFileLengthHi
  | .csrWrReadFileLengthHi _ | .csrRdReadFileLength | .csrWrReadFileLength _ | .csrRdReadBufferTransferDone
  | .csrWrReadBufferTransferDone _ | .csrRdWriteBufferTransferDone | .csrWrWriteBufferTransferDone _ | .csrRdEncParams1
  | .csrWrEncParams1 _ | .csrRdEncParams2 | .csrWrEncParams2 _ | .csrRdRawResolution | .csrWrRawResolution _
  | .csrRdUsecaseMode | .csrWrUsecaseMode _ | .csrRdEncParams3 | .csrWrEncParams3 _ | .csrRdEncParams4 | .csrWrEncParams4 _
  | .csrRdEncParams5 | .csrWrEncParams5 _ | .csrRdReadBufferTransferDoneIntr | .csrWrReadBufferTransferDoneIntr _
  | .csrRdWriteBufferTransferDoneIntr | .csrWrWriteBufferTransferDoneIntr _ | .csrRdHostDoneIntr | .csrWrHostDoneIntr _
  | .getFileLength | .getEncParams | .getResolution | .getMode | .getFps | .getFormat | .setReadOffset _ | .setWriteOffset _
  | .setReadTransferDone | .clearReadTransferDone | .setWriteTransferDone | .clearWriteTransferDone | .wait _ | .signal _
  | .resetAll | .seek _ | .evReadComplete | .evWriteComplete | .evHostDone => false

/-- The operations whose rules allocate, free or store bytes of a buffer. -/
def changesBuffer (i : Instr) : Bool :=
  match i with
  | .beginTransfer _ _ | .completeAndRelease _ | .abort _ | .read _ | .write _ => true
  | .csrRdReadBufferReady | .csrWrReadBufferReady _ | .csrRdReadBufferAddr | .csrWrReadBufferAddr _ | .csrRdReadBufferOffset
  | .csrWrReadBufferOffset _ | .csrRdReadBufferSize | .csrWrReadBufferSize _ | .csrRdWriteBufferReady
  | .csrWrWriteBufferReady _ | .csrRdWriteBufferAddr | .csrWrWriteBufferAddr _ | .csrRdWriteBufferOffset
  | .csrWrWriteBufferOffset _ | .csrRdWriteBufferSize | .csrWrWriteBufferSize _ | .csrRdReadTransferDone
  | .csrWrReadTransferDone _ | .csrRdWriteTransferDone | .csrWrWriteTransferDone _ | .csrRdReadFileLengthHi
  | .csrWrReadFileLengthHi _ | .csrRdReadFileLength | .csrWrReadFileLength _ | .csrRdReadBufferTransferDone
  | .csrWrReadBufferTransferDone _ | .csrRdWriteBufferTransferDone | .csrWrWriteBufferTransferDone _ | .csrRdEncParams1
  | .csrWrEncParams1 _ | .csrRdEncParams2 | .csrWrEncParams2 _ | .csrRdRawResolution | .csrWrRawResolution _
  | .csrRdUsecaseMode | .csrWrUsecaseMode _ | .csrRdEncParams3 | .csrWrEncParams3 _ | .csrRdEncParams4 | .csrWrEncParams4 _
  | .csrRdEncParams5 | .csrWrEncParams5 _ | .csrRdReadBufferTransferDoneIntr | .csrWrReadBufferTransferDoneIntr _
  | .csrRdWriteBufferTransferDoneIntr | .csrWrWriteBufferTransferDoneIntr _ | .csrRdHostDoneIntr | .csrWrHostDoneIntr _
  | .getFileLength | .getEncParams | .getResolution | .getMode | .getFps | .getFormat | .setReadOffset _ | .setWriteOffset _
  | .setReadTransferDone | .clearReadTransferDone | .setWriteTransferDone | .clearWriteTransferDone | .markReady _ | .wait _
  | .signal _ | .resetAll | .seek _ | .evReadComplete | .evWriteComplete | .evHostDone => false

/-- The operations whose rules change a gate (R39, R192). -/
def changesGate (i : Instr) : Bool :=
  match i with
  | .beginTransfer _ _ | .wait _ | .signal _ | .read _ | .write _ | .evReadComplete | .evWriteComplete => true
  | .csrRdReadBufferReady | .csrWrReadBufferReady _ | .csrRdReadBufferAddr | .csrWrReadBufferAddr _ | .csrRdReadBufferOffset
  | .csrWrReadBufferOffset _ | .csrRdReadBufferSize | .csrWrReadBufferSize _ | .csrRdWriteBufferReady
  | .csrWrWriteBufferReady _ | .csrRdWriteBufferAddr | .csrWrWriteBufferAddr _ | .csrRdWriteBufferOffset
  | .csrWrWriteBufferOffset _ | .csrRdWriteBufferSize | .csrWrWriteBufferSize _ | .csrRdReadTransferDone
  | .csrWrReadTransferDone _ | .csrRdWriteTransferDone | .csrWrWriteTransferDone _ | .csrRdReadFileLengthHi
  | .csrWrReadFileLengthHi _ | .csrRdReadFileLength | .csrWrReadFileLength _ | .csrRdReadBufferTransferDone
  | .csrWrReadBufferTransferDone _ | .csrRdWriteBufferTransferDone | .csrWrWriteBufferTransferDone _ | .csrRdEncParams1
  | .csrWrEncParams1 _ | .csrRdEncParams2 | .csrWrEncParams2 _ | .csrRdRawResolution | .csrWrRawResolution _
  | .csrRdUsecaseMode | .csrWrUsecaseMode _ | .csrRdEncParams3 | .csrWrEncParams3 _ | .csrRdEncParams4 | .csrWrEncParams4 _
  | .csrRdEncParams5 | .csrWrEncParams5 _ | .csrRdReadBufferTransferDoneIntr | .csrWrReadBufferTransferDoneIntr _
  | .csrRdWriteBufferTransferDoneIntr | .csrWrWriteBufferTransferDoneIntr _ | .csrRdHostDoneIntr | .csrWrHostDoneIntr _
  | .getFileLength | .getEncParams | .getResolution | .getMode | .getFps | .getFormat | .setReadOffset _ | .setWriteOffset _
  | .setReadTransferDone | .clearReadTransferDone | .setWriteTransferDone | .clearWriteTransferDone | .markReady _
  | .completeAndRelease _ | .abort _ | .resetAll | .seek _ | .evHostDone => false

/-- The operations whose rules change a waiter mark (R42). -/
def changesWaiter (i : Instr) : Bool :=
  match i with
  | .wait _ | .abort _ | .read _ | .write _ => true
  | .csrRdReadBufferReady | .csrWrReadBufferReady _ | .csrRdReadBufferAddr | .csrWrReadBufferAddr _ | .csrRdReadBufferOffset
  | .csrWrReadBufferOffset _ | .csrRdReadBufferSize | .csrWrReadBufferSize _ | .csrRdWriteBufferReady
  | .csrWrWriteBufferReady _ | .csrRdWriteBufferAddr | .csrWrWriteBufferAddr _ | .csrRdWriteBufferOffset
  | .csrWrWriteBufferOffset _ | .csrRdWriteBufferSize | .csrWrWriteBufferSize _ | .csrRdReadTransferDone
  | .csrWrReadTransferDone _ | .csrRdWriteTransferDone | .csrWrWriteTransferDone _ | .csrRdReadFileLengthHi
  | .csrWrReadFileLengthHi _ | .csrRdReadFileLength | .csrWrReadFileLength _ | .csrRdReadBufferTransferDone
  | .csrWrReadBufferTransferDone _ | .csrRdWriteBufferTransferDone | .csrWrWriteBufferTransferDone _ | .csrRdEncParams1
  | .csrWrEncParams1 _ | .csrRdEncParams2 | .csrWrEncParams2 _ | .csrRdRawResolution | .csrWrRawResolution _
  | .csrRdUsecaseMode | .csrWrUsecaseMode _ | .csrRdEncParams3 | .csrWrEncParams3 _ | .csrRdEncParams4 | .csrWrEncParams4 _
  | .csrRdEncParams5 | .csrWrEncParams5 _ | .csrRdReadBufferTransferDoneIntr | .csrWrReadBufferTransferDoneIntr _
  | .csrRdWriteBufferTransferDoneIntr | .csrWrWriteBufferTransferDoneIntr _ | .csrRdHostDoneIntr | .csrWrHostDoneIntr _
  | .getFileLength | .getEncParams | .getResolution | .getMode | .getFps | .getFormat | .setReadOffset _ | .setWriteOffset _
  | .setReadTransferDone | .clearReadTransferDone | .setWriteTransferDone | .clearWriteTransferDone | .beginTransfer _ _
  | .markReady _ | .completeAndRelease _ | .signal _ | .resetAll | .seek _ | .evReadComplete | .evWriteComplete | .evHostDone => false

/-- The line whose pending mark an operation may clear (R43, R115). -/
def acknowledges (i : Instr) : Option Line :=
  match i with
  | .csrWrReadBufferTransferDoneIntr _ | .evReadComplete => some .rc
  | .csrWrWriteBufferTransferDoneIntr _ | .evWriteComplete => some .wc
  | .csrWrHostDoneIntr _ | .evHostDone => some .hd
  | .csrRdReadBufferReady | .csrWrReadBufferReady _ | .csrRdReadBufferAddr | .csrWrReadBufferAddr _ | .csrRdReadBufferOffset
  | .csrWrReadBufferOffset _ | .csrRdReadBufferSize | .csrWrReadBufferSize _ | .csrRdWriteBufferReady
  | .csrWrWriteBufferReady _ | .csrRdWriteBufferAddr | .csrWrWriteBufferAddr _ | .csrRdWriteBufferOffset
  | .csrWrWriteBufferOffset _ | .csrRdWriteBufferSize | .csrWrWriteBufferSize _ | .csrRdReadTransferDone
  | .csrWrReadTransferDone _ | .csrRdWriteTransferDone | .csrWrWriteTransferDone _ | .csrRdReadFileLengthHi
  | .csrWrReadFileLengthHi _ | .csrRdReadFileLength | .csrWrReadFileLength _ | .csrRdReadBufferTransferDone
  | .csrWrReadBufferTransferDone _ | .csrRdWriteBufferTransferDone | .csrWrWriteBufferTransferDone _ | .csrRdEncParams1
  | .csrWrEncParams1 _ | .csrRdEncParams2 | .csrWrEncParams2 _ | .csrRdRawResolution | .csrWrRawResolution _
  | .csrRdUsecaseMode | .csrWrUsecaseMode _ | .csrRdEncParams3 | .csrWrEncParams3 _ | .csrRdEncParams4 | .csrWrEncParams4 _
  | .csrRdEncParams5 | .csrWrEncParams5 _ | .csrRdReadBufferTransferDoneIntr | .csrRdWriteBufferTransferDoneIntr
  | .csrRdHostDoneIntr | .getFileLength | .getEncParams | .getResolution | .getMode | .getFps | .getFormat | .setReadOffset _
  | .setWriteOffset _ | .setReadTransferDone | .clearReadTransferDone | .setWriteTransferDone | .clearWriteTransferDone
  | .beginTransfer _ _ | .markReady _ | .completeAndRelease _ | .wait _ | .signal _ | .abort _ | .resetAll | .read _
  | .write _ | .seek _ => none

/-- The direction an operation belongs to, where it belongs to one (R6). -/
def directionOf (i : Instr) : Option Dir :=
  match i with
  | .csrRdReadBufferReady | .csrRdReadBufferAddr | .csrRdReadBufferOffset | .csrRdReadBufferSize | .csrRdReadTransferDone
  | .csrWrReadBufferReady _ | .csrWrReadBufferAddr _ | .csrWrReadBufferOffset _ | .csrWrReadBufferSize _
  | .csrWrReadTransferDone _ | .setReadOffset _ | .setReadTransferDone | .clearReadTransferDone | .read _ | .seek _
  | .evReadComplete => some .read
  | .csrRdWriteBufferReady | .csrRdWriteBufferAddr | .csrRdWriteBufferOffset | .csrRdWriteBufferSize
  | .csrRdWriteTransferDone | .csrWrWriteBufferReady _ | .csrWrWriteBufferAddr _ | .csrWrWriteBufferOffset _
  | .csrWrWriteBufferSize _ | .csrWrWriteTransferDone _ | .setWriteOffset _ | .setWriteTransferDone
  | .clearWriteTransferDone | .write _ | .evWriteComplete => some .write
  | .beginTransfer d _ | .markReady d | .completeAndRelease d | .wait d | .signal d | .abort d => some d
  | .csrRdReadFileLengthHi | .csrWrReadFileLengthHi _ | .csrRdReadFileLength | .csrWrReadFileLength _
  | .csrRdReadBufferTransferDone | .csrWrReadBufferTransferDone _ | .csrRdWriteBufferTransferDone
  | .csrWrWriteBufferTransferDone _ | .csrRdEncParams1 | .csrWrEncParams1 _ | .csrRdEncParams2 | .csrWrEncParams2 _
  | .csrRdRawResolution | .csrWrRawResolution _ | .csrRdUsecaseMode | .csrWrUsecaseMode _ | .csrRdEncParams3
  | .csrWrEncParams3 _ | .csrRdEncParams4 | .csrWrEncParams4 _ | .csrRdEncParams5 | .csrWrEncParams5 _
  | .csrRdReadBufferTransferDoneIntr | .csrWrReadBufferTransferDoneIntr _ | .csrRdWriteBufferTransferDoneIntr
  | .csrWrWriteBufferTransferDoneIntr _ | .csrRdHostDoneIntr | .csrWrHostDoneIntr _ | .getFileLength | .getEncParams
  | .getResolution | .getMode | .getFps | .getFormat | .resetAll | .evHostDone => none

/-- Everything of direction `d` is the same in two states (R6): slot, buffer, handle, open block, gate, waiter, registers and the
direction's event line. -/
def sameDirection (d : Dir) (s t : State) : Prop :=
  t.slot.get d = s.slot.get d ∧ t.buf.get d = s.buf.get d ∧ t.handle.get d = s.handle.get d ∧ t.opened.get d = s.opened.get d ∧
    t.gate.get d = s.gate.get d ∧ t.waiter.get d = s.waiter.get d ∧
    t.reg (readyReg d) = s.reg (readyReg d) ∧ t.reg (addrReg d) = s.reg (addrReg d) ∧
    t.reg (offsetReg d) = s.reg (offsetReg d) ∧ t.reg (sizeReg d) = s.reg (sizeReg d) ∧
    t.reg (doneReg d) = s.reg (doneReg d) ∧ t.pending.get (completionLine d) = s.pending.get (completionLine d)

/-- The register writes that R46 (c) sets aside: a raw write of level X to a READY or an OFFSET register. -/
def rawReservedWrite (i : Instr) : Bool :=
  match i with
  | .csrWrReadBufferReady _ | .csrWrReadBufferOffset _ | .csrWrWriteBufferReady _ | .csrWrWriteBufferOffset _ => true
  | .csrRdReadBufferReady | .csrRdReadBufferAddr | .csrWrReadBufferAddr _ | .csrRdReadBufferOffset | .csrRdReadBufferSize
  | .csrWrReadBufferSize _ | .csrRdWriteBufferReady | .csrRdWriteBufferAddr | .csrWrWriteBufferAddr _
  | .csrRdWriteBufferOffset | .csrRdWriteBufferSize | .csrWrWriteBufferSize _ | .csrRdReadTransferDone
  | .csrWrReadTransferDone _ | .csrRdWriteTransferDone | .csrWrWriteTransferDone _ | .csrRdReadFileLengthHi
  | .csrWrReadFileLengthHi _ | .csrRdReadFileLength | .csrWrReadFileLength _ | .csrRdReadBufferTransferDone
  | .csrWrReadBufferTransferDone _ | .csrRdWriteBufferTransferDone | .csrWrWriteBufferTransferDone _ | .csrRdEncParams1
  | .csrWrEncParams1 _ | .csrRdEncParams2 | .csrWrEncParams2 _ | .csrRdRawResolution | .csrWrRawResolution _
  | .csrRdUsecaseMode | .csrWrUsecaseMode _ | .csrRdEncParams3 | .csrWrEncParams3 _ | .csrRdEncParams4 | .csrWrEncParams4 _
  | .csrRdEncParams5 | .csrWrEncParams5 _ | .csrRdReadBufferTransferDoneIntr | .csrWrReadBufferTransferDoneIntr _
  | .csrRdWriteBufferTransferDoneIntr | .csrWrWriteBufferTransferDoneIntr _ | .csrRdHostDoneIntr | .csrWrHostDoneIntr _
  | .getFileLength | .getEncParams | .getResolution | .getMode | .getFps | .getFormat | .setReadOffset _ | .setWriteOffset _
  | .setReadTransferDone | .clearReadTransferDone | .setWriteTransferDone | .clearWriteTransferDone | .beginTransfer _ _
  | .markReady _ | .completeAndRelease _ | .wait _ | .signal _ | .abort _ | .resetAll | .read _ | .write _ | .seek _
  | .evReadComplete | .evWriteComplete | .evHostDone => false

/-- The operations that set ready bit `d` (R37, R49; a raw write, R121, R129, R116). -/
def setsReady (d : Dir) (i : Instr) : Bool :=
  match i with
  | .markReady d' => decide (d' = d)
  | .read _ | .csrWrReadBufferReady _ => decide (d = .read)
  | .write _ | .csrWrWriteBufferReady _ => decide (d = .write)
  | .csrRdReadBufferReady | .csrRdReadBufferAddr | .csrWrReadBufferAddr _ | .csrRdReadBufferOffset | .csrWrReadBufferOffset _
  | .csrRdReadBufferSize | .csrWrReadBufferSize _ | .csrRdWriteBufferReady | .csrRdWriteBufferAddr | .csrWrWriteBufferAddr _
  | .csrRdWriteBufferOffset | .csrWrWriteBufferOffset _ | .csrRdWriteBufferSize | .csrWrWriteBufferSize _
  | .csrRdReadTransferDone | .csrWrReadTransferDone _ | .csrRdWriteTransferDone | .csrWrWriteTransferDone _
  | .csrRdReadFileLengthHi | .csrWrReadFileLengthHi _ | .csrRdReadFileLength | .csrWrReadFileLength _
  | .csrRdReadBufferTransferDone | .csrWrReadBufferTransferDone _ | .csrRdWriteBufferTransferDone
  | .csrWrWriteBufferTransferDone _ | .csrRdEncParams1 | .csrWrEncParams1 _ | .csrRdEncParams2 | .csrWrEncParams2 _
  | .csrRdRawResolution | .csrWrRawResolution _ | .csrRdUsecaseMode | .csrWrUsecaseMode _ | .csrRdEncParams3
  | .csrWrEncParams3 _ | .csrRdEncParams4 | .csrWrEncParams4 _ | .csrRdEncParams5 | .csrWrEncParams5 _
  | .csrRdReadBufferTransferDoneIntr | .csrWrReadBufferTransferDoneIntr _ | .csrRdWriteBufferTransferDoneIntr
  | .csrWrWriteBufferTransferDoneIntr _ | .csrRdHostDoneIntr | .csrWrHostDoneIntr _ | .getFileLength | .getEncParams
  | .getResolution | .getMode | .getFps | .getFormat | .setReadOffset _ | .setWriteOffset _ | .setReadTransferDone
  | .clearReadTransferDone | .setWriteTransferDone | .clearWriteTransferDone | .beginTransfer _ _ | .completeAndRelease _
  | .wait _ | .signal _ | .abort _ | .resetAll | .seek _ | .evReadComplete | .evWriteComplete | .evHostDone => false

/-- The operations that turn gate `d` to Signaled (R39, R49). -/
def signalsGate (d : Dir) (i : Instr) : Bool :=
  match i with
  | .signal d' => decide (d' = d)
  | .evReadComplete => decide (d = .read)
  | .evWriteComplete => decide (d = .write)
  | .csrRdReadBufferReady | .csrWrReadBufferReady _ | .csrRdReadBufferAddr | .csrWrReadBufferAddr _ | .csrRdReadBufferOffset
  | .csrWrReadBufferOffset _ | .csrRdReadBufferSize | .csrWrReadBufferSize _ | .csrRdWriteBufferReady
  | .csrWrWriteBufferReady _ | .csrRdWriteBufferAddr | .csrWrWriteBufferAddr _ | .csrRdWriteBufferOffset
  | .csrWrWriteBufferOffset _ | .csrRdWriteBufferSize | .csrWrWriteBufferSize _ | .csrRdReadTransferDone
  | .csrWrReadTransferDone _ | .csrRdWriteTransferDone | .csrWrWriteTransferDone _ | .csrRdReadFileLengthHi
  | .csrWrReadFileLengthHi _ | .csrRdReadFileLength | .csrWrReadFileLength _ | .csrRdReadBufferTransferDone
  | .csrWrReadBufferTransferDone _ | .csrRdWriteBufferTransferDone | .csrWrWriteBufferTransferDone _ | .csrRdEncParams1
  | .csrWrEncParams1 _ | .csrRdEncParams2 | .csrWrEncParams2 _ | .csrRdRawResolution | .csrWrRawResolution _
  | .csrRdUsecaseMode | .csrWrUsecaseMode _ | .csrRdEncParams3 | .csrWrEncParams3 _ | .csrRdEncParams4 | .csrWrEncParams4 _
  | .csrRdEncParams5 | .csrWrEncParams5 _ | .csrRdReadBufferTransferDoneIntr | .csrWrReadBufferTransferDoneIntr _
  | .csrRdWriteBufferTransferDoneIntr | .csrWrWriteBufferTransferDoneIntr _ | .csrRdHostDoneIntr | .csrWrHostDoneIntr _
  | .getFileLength | .getEncParams | .getResolution | .getMode | .getFps | .getFormat | .setReadOffset _ | .setWriteOffset _
  | .setReadTransferDone | .clearReadTransferDone | .setWriteTransferDone | .clearWriteTransferDone | .beginTransfer _ _
  | .markReady _ | .completeAndRelease _ | .wait _ | .abort _ | .resetAll | .read _ | .write _ | .seek _ | .evHostDone => false

/-- The steps of a caller's operation are in the order WAIT's rule gives (R190): a waiter mark is set for the caller itself, and
the next step is the block; and a session reset it makes is that of its own session (R282). -/
def waitsInOrder (k : Nat) : List Micro → Bool
  | [] => true
  | .waitEnter d j :: rest => decide (j = k) && decide (rest.head? = some (.waitBlock d)) && waitsInOrder k rest
  | .resetDirection _ j :: rest => decide (j = k) && waitsInOrder k rest
  | _ :: rest => waitsInOrder k rest

/-- The steps of a reaction never wait (R5, R257), and none is a session reset. -/
def neverWaits (todo : List Micro) : Bool :=
  todo.all fun m =>
    match m with
    | .waitEnter _ _ => false
    | .waitBlock _ => false
    | .resetDirection _ _ => false
    | _ => true

/-- The next steps of a caller take its waiter mark on `d` away: it stands at the block of WAIT.d, or in the steps of ABORT.d that come
before and make up the clearing of the mark (R174, R190). -/
def clearsMark (d : Dir) : List Micro → Bool
  | .waitBlock d' :: _ => decide (d' = d)
  | .unwait d' :: _ => decide (d' = d)
  | .enter :: rest => clearsMark d rest
  | .rmw _ _ :: rest => clearsMark d rest
  | .putReady _ _ :: rest => clearsMark d rest
  | _ => false

/-- The waiter marks stand for agents that are blocked (R42, R46 e): a caller marked as waiting on `d` has the clearing of that mark
next; the operations in progress have their waits in the order of R190 and reset their own session only, the reactions do neither. -/
def State.waitersBlocked (s : State) : Prop :=
  (∀ d k, s.waiter.get d = some k → ∃ t, (s.callerOf k).task = some t ∧ clearsMark d t.todo = true) ∧
  (∀ k t, (s.callerOf k).task = some t → waitsInOrder k t.todo = true) ∧
  (∀ l t, s.handler.get l = some t → neverWaits t.todo = true)

/-- The operations whose operand fills the whole data or argument field of their word (R96, R98, R99): the decoder ignores that
field in all others. -/
def carriesData (i : Instr) : Bool :=
  match i with
  | .csrWrReadBufferReady _ | .csrWrReadBufferAddr _ | .csrWrReadBufferOffset _ | .csrWrReadBufferSize _
  | .csrWrWriteBufferReady _ | .csrWrWriteBufferAddr _ | .csrWrWriteBufferOffset _ | .csrWrWriteBufferSize _
  | .csrWrReadTransferDone _ | .csrWrWriteTransferDone _ | .csrWrReadFileLengthHi _ | .csrWrReadFileLength _
  | .csrWrReadBufferTransferDone _ | .csrWrWriteBufferTransferDone _ | .csrWrEncParams1 _ | .csrWrEncParams2 _
  | .csrWrRawResolution _ | .csrWrUsecaseMode _ | .csrWrEncParams3 _ | .csrWrEncParams4 _ | .csrWrEncParams5 _
  | .csrWrReadBufferTransferDoneIntr _ | .csrWrWriteBufferTransferDoneIntr _ | .csrWrHostDoneIntr _
  | .setReadOffset _ | .setWriteOffset _ | .beginTransfer _ _ | .read _ | .write _ | .seek _ => true
  | .csrRdReadBufferReady | .csrRdReadBufferAddr | .csrRdReadBufferOffset | .csrRdReadBufferSize | .csrRdWriteBufferReady
  | .csrRdWriteBufferAddr | .csrRdWriteBufferOffset | .csrRdWriteBufferSize | .csrRdReadTransferDone
  | .csrRdWriteTransferDone | .csrRdReadFileLengthHi | .csrRdReadFileLength | .csrRdReadBufferTransferDone
  | .csrRdWriteBufferTransferDone | .csrRdEncParams1 | .csrRdEncParams2 | .csrRdRawResolution | .csrRdUsecaseMode
  | .csrRdEncParams3 | .csrRdEncParams4 | .csrRdEncParams5 | .csrRdReadBufferTransferDoneIntr
  | .csrRdWriteBufferTransferDoneIntr | .csrRdHostDoneIntr | .getFileLength | .getEncParams | .getResolution | .getMode
  | .getFps | .getFormat | .setReadTransferDone | .clearReadTransferDone | .setWriteTransferDone | .clearWriteTransferDone
  | .markReady _ | .completeAndRelease _ | .wait _ | .signal _ | .abort _ | .resetAll | .evReadComplete | .evWriteComplete
  | .evHostDone => false

/-- The operations that clear ready bit `d` (R37, R49; a raw write, R121, R129, R116). -/
def clearsReady (d : Dir) (i : Instr) : Bool :=
  match i with
  | .evReadComplete | .csrWrReadBufferReady _ => decide (d = .read)
  | .evWriteComplete | .csrWrWriteBufferReady _ => decide (d = .write)
  | .abort d' => decide (d' = d)
  | .resetAll => true
  | .csrRdReadBufferReady | .csrRdReadBufferAddr | .csrWrReadBufferAddr _ | .csrRdReadBufferOffset | .csrWrReadBufferOffset _
  | .csrRdReadBufferSize | .csrWrReadBufferSize _ | .csrRdWriteBufferReady | .csrRdWriteBufferAddr | .csrWrWriteBufferAddr _
  | .csrRdWriteBufferOffset | .csrWrWriteBufferOffset _ | .csrRdWriteBufferSize | .csrWrWriteBufferSize _
  | .csrRdReadTransferDone | .csrWrReadTransferDone _ | .csrRdWriteTransferDone | .csrWrWriteTransferDone _
  | .csrRdReadFileLengthHi | .csrWrReadFileLengthHi _ | .csrRdReadFileLength | .csrWrReadFileLength _
  | .csrRdReadBufferTransferDone | .csrWrReadBufferTransferDone _ | .csrRdWriteBufferTransferDone
  | .csrWrWriteBufferTransferDone _ | .csrRdEncParams1 | .csrWrEncParams1 _ | .csrRdEncParams2 | .csrWrEncParams2 _
  | .csrRdRawResolution | .csrWrRawResolution _ | .csrRdUsecaseMode | .csrWrUsecaseMode _ | .csrRdEncParams3
  | .csrWrEncParams3 _ | .csrRdEncParams4 | .csrWrEncParams4 _ | .csrRdEncParams5 | .csrWrEncParams5 _
  | .csrRdReadBufferTransferDoneIntr | .csrWrReadBufferTransferDoneIntr _ | .csrRdWriteBufferTransferDoneIntr
  | .csrWrWriteBufferTransferDoneIntr _ | .csrRdHostDoneIntr | .csrWrHostDoneIntr _ | .getFileLength | .getEncParams
  | .getResolution | .getMode | .getFps | .getFormat | .setReadOffset _ | .setWriteOffset _ | .setReadTransferDone
  | .clearReadTransferDone | .setWriteTransferDone | .clearWriteTransferDone | .beginTransfer _ _ | .markReady _
  | .completeAndRelease _ | .wait _ | .signal _ | .read _ | .write _ | .seek _ | .evHostDone => false

/-- The operations that write the done flag of `d` (R38, R49; a raw write, R137, R139). -/
def writesDone (d : Dir) (i : Instr) : Bool :=
  match i with
  | .setReadTransferDone | .clearReadTransferDone | .csrWrReadTransferDone _ => decide (d = .read)
  | .setWriteTransferDone | .clearWriteTransferDone | .csrWrWriteTransferDone _ => decide (d = .write)
  | .evHostDone | .resetAll => true
  | .csrRdReadBufferReady | .csrWrReadBufferReady _ | .csrRdReadBufferAddr | .csrWrReadBufferAddr _ | .csrRdReadBufferOffset
  | .csrWrReadBufferOffset _ | .csrRdReadBufferSize | .csrWrReadBufferSize _ | .csrRdWriteBufferReady
  | .csrWrWriteBufferReady _ | .csrRdWriteBufferAddr | .csrWrWriteBufferAddr _ | .csrRdWriteBufferOffset
  | .csrWrWriteBufferOffset _ | .csrRdWriteBufferSize | .csrWrWriteBufferSize _ | .csrRdReadTransferDone
  | .csrRdWriteTransferDone | .csrRdReadFileLengthHi | .csrWrReadFileLengthHi _ | .csrRdReadFileLength
  | .csrWrReadFileLength _ | .csrRdReadBufferTransferDone | .csrWrReadBufferTransferDone _ | .csrRdWriteBufferTransferDone
  | .csrWrWriteBufferTransferDone _ | .csrRdEncParams1 | .csrWrEncParams1 _ | .csrRdEncParams2 | .csrWrEncParams2 _
  | .csrRdRawResolution | .csrWrRawResolution _ | .csrRdUsecaseMode | .csrWrUsecaseMode _ | .csrRdEncParams3
  | .csrWrEncParams3 _ | .csrRdEncParams4 | .csrWrEncParams4 _ | .csrRdEncParams5 | .csrWrEncParams5 _
  | .csrRdReadBufferTransferDoneIntr | .csrWrReadBufferTransferDoneIntr _ | .csrRdWriteBufferTransferDoneIntr
  | .csrWrWriteBufferTransferDoneIntr _ | .csrRdHostDoneIntr | .csrWrHostDoneIntr _ | .getFileLength | .getEncParams
  | .getResolution | .getMode | .getFps | .getFormat | .setReadOffset _ | .setWriteOffset _ | .beginTransfer _ _
  | .markReady _ | .completeAndRelease _ | .wait _ | .signal _ | .abort _ | .read _ | .write _ | .seek _ | .evReadComplete
  | .evWriteComplete => false

/-- The operations that turn gate `d` back to Pending (R39, R49, R192): WAIT.d when it consumes the signal, and BEGIN_TRANSFER.d,
alone or inside READ and WRITE. -/
def resetsGate (d : Dir) (i : Instr) : Bool :=
  match i with
  | .wait d' | .beginTransfer d' _ => decide (d' = d)
  | .read _ => decide (d = .read)
  | .write _ => decide (d = .write)
  | .csrRdReadBufferReady | .csrWrReadBufferReady _ | .csrRdReadBufferAddr | .csrWrReadBufferAddr _ | .csrRdReadBufferOffset
  | .csrWrReadBufferOffset _ | .csrRdReadBufferSize | .csrWrReadBufferSize _ | .csrRdWriteBufferReady
  | .csrWrWriteBufferReady _ | .csrRdWriteBufferAddr | .csrWrWriteBufferAddr _ | .csrRdWriteBufferOffset
  | .csrWrWriteBufferOffset _ | .csrRdWriteBufferSize | .csrWrWriteBufferSize _ | .csrRdReadTransferDone
  | .csrWrReadTransferDone _ | .csrRdWriteTransferDone | .csrWrWriteTransferDone _ | .csrRdReadFileLengthHi
  | .csrWrReadFileLengthHi _ | .csrRdReadFileLength | .csrWrReadFileLength _ | .csrRdReadBufferTransferDone
  | .csrWrReadBufferTransferDone _ | .csrRdWriteBufferTransferDone | .csrWrWriteBufferTransferDone _ | .csrRdEncParams1
  | .csrWrEncParams1 _ | .csrRdEncParams2 | .csrWrEncParams2 _ | .csrRdRawResolution | .csrWrRawResolution _
  | .csrRdUsecaseMode | .csrWrUsecaseMode _ | .csrRdEncParams3 | .csrWrEncParams3 _ | .csrRdEncParams4 | .csrWrEncParams4 _
  | .csrRdEncParams5 | .csrWrEncParams5 _ | .csrRdReadBufferTransferDoneIntr | .csrWrReadBufferTransferDoneIntr _
  | .csrRdWriteBufferTransferDoneIntr | .csrWrWriteBufferTransferDoneIntr _ | .csrRdHostDoneIntr | .csrWrHostDoneIntr _
  | .getFileLength | .getEncParams | .getResolution | .getMode | .getFps | .getFormat | .setReadOffset _ | .setWriteOffset _
  | .setReadTransferDone | .clearReadTransferDone | .setWriteTransferDone | .clearWriteTransferDone | .markReady _
  | .completeAndRelease _ | .signal _ | .abort _ | .resetAll | .seek _ | .evReadComplete | .evWriteComplete | .evHostDone => false

/-- The agent whose turn an operation is: the event context in its line's reaction, or the caller whose turn it is. -/
def agentOf (i : Instr) (s : State) : Agent :=
  match i with
  | .evReadComplete => .handler .rc
  | .evWriteComplete => .handler .wc
  | .evHostDone => .handler .hd
  | .csrRdReadBufferReady | .csrWrReadBufferReady _ | .csrRdReadBufferAddr | .csrWrReadBufferAddr _ | .csrRdReadBufferOffset
  | .csrWrReadBufferOffset _ | .csrRdReadBufferSize | .csrWrReadBufferSize _ | .csrRdWriteBufferReady
  | .csrWrWriteBufferReady _ | .csrRdWriteBufferAddr | .csrWrWriteBufferAddr _ | .csrRdWriteBufferOffset
  | .csrWrWriteBufferOffset _ | .csrRdWriteBufferSize | .csrWrWriteBufferSize _ | .csrRdReadTransferDone
  | .csrWrReadTransferDone _ | .csrRdWriteTransferDone | .csrWrWriteTransferDone _ | .csrRdReadFileLengthHi
  | .csrWrReadFileLengthHi _ | .csrRdReadFileLength | .csrWrReadFileLength _ | .csrRdReadBufferTransferDone
  | .csrWrReadBufferTransferDone _ | .csrRdWriteBufferTransferDone | .csrWrWriteBufferTransferDone _ | .csrRdEncParams1
  | .csrWrEncParams1 _ | .csrRdEncParams2 | .csrWrEncParams2 _ | .csrRdRawResolution | .csrWrRawResolution _
  | .csrRdUsecaseMode | .csrWrUsecaseMode _ | .csrRdEncParams3 | .csrWrEncParams3 _ | .csrRdEncParams4 | .csrWrEncParams4 _
  | .csrRdEncParams5 | .csrWrEncParams5 _ | .csrRdReadBufferTransferDoneIntr | .csrWrReadBufferTransferDoneIntr _
  | .csrRdWriteBufferTransferDoneIntr | .csrWrWriteBufferTransferDoneIntr _ | .csrRdHostDoneIntr | .csrWrHostDoneIntr _
  | .getFileLength | .getEncParams | .getResolution | .getMode | .getFps | .getFormat | .setReadOffset _ | .setWriteOffset _
  | .setReadTransferDone | .clearReadTransferDone | .setWriteTransferDone | .clearWriteTransferDone | .beginTransfer _ _
  | .markReady _ | .completeAndRelease _ | .wait _ | .signal _ | .abort _ | .resetAll | .read _ | .write _ | .seek _ => .caller s.caller

/-- The operations that may take the published buffer of direction `d` out of the device's view before its completion event, or change
what the device reads (R46 d): the event itself, a raw write to READY_d, ADDR_d or SIZE_d, RESET_ALL and ABORT.d. -/
def withdraws (d : Dir) (i : Instr) : Bool :=
  match i with
  | .csrWrReadBufferReady _ | .csrWrReadBufferAddr _ | .csrWrReadBufferSize _ | .evReadComplete => decide (d = .read)
  | .csrWrWriteBufferReady _ | .csrWrWriteBufferAddr _ | .csrWrWriteBufferSize _ | .evWriteComplete => decide (d = .write)
  | .abort d' => decide (d' = d)
  | .resetAll => true
  | .csrRdReadBufferReady | .csrRdReadBufferAddr | .csrRdReadBufferOffset | .csrWrReadBufferOffset _ | .csrRdReadBufferSize
  | .csrRdWriteBufferReady | .csrRdWriteBufferAddr | .csrRdWriteBufferOffset | .csrWrWriteBufferOffset _
  | .csrRdWriteBufferSize | .csrRdReadTransferDone | .csrWrReadTransferDone _ | .csrRdWriteTransferDone
  | .csrWrWriteTransferDone _ | .csrRdReadFileLengthHi | .csrWrReadFileLengthHi _ | .csrRdReadFileLength
  | .csrWrReadFileLength _ | .csrRdReadBufferTransferDone | .csrWrReadBufferTransferDone _ | .csrRdWriteBufferTransferDone
  | .csrWrWriteBufferTransferDone _ | .csrRdEncParams1 | .csrWrEncParams1 _ | .csrRdEncParams2 | .csrWrEncParams2 _
  | .csrRdRawResolution | .csrWrRawResolution _ | .csrRdUsecaseMode | .csrWrUsecaseMode _ | .csrRdEncParams3
  | .csrWrEncParams3 _ | .csrRdEncParams4 | .csrWrEncParams4 _ | .csrRdEncParams5 | .csrWrEncParams5 _
  | .csrRdReadBufferTransferDoneIntr | .csrWrReadBufferTransferDoneIntr _ | .csrRdWriteBufferTransferDoneIntr
  | .csrWrWriteBufferTransferDoneIntr _ | .csrRdHostDoneIntr | .csrWrHostDoneIntr _ | .getFileLength | .getEncParams
  | .getResolution | .getMode | .getFps | .getFormat | .setReadOffset _ | .setWriteOffset _ | .setReadTransferDone
  | .clearReadTransferDone | .setWriteTransferDone | .clearWriteTransferDone | .beginTransfer _ _ | .markReady _
  | .completeAndRelease _ | .wait _ | .signal _ | .read _ | .write _ | .seek _ | .evHostDone => false

/-- A step does not take the published buffer of `d` out of the device's view, nor change what the device reads of it, while the slot
awaits completion (R46 d). -/
def keepsOffered (d : Dir) (m : Micro) : Bool :=
  match m with
  | .rmw d' .clearReady => decide (d' ≠ d)
  | .write (.s r) _ => decide (r ≠ readyReg d ∧ r ≠ addrReg d ∧ r ≠ sizeReg d)
  | .resetReg r _ => decide (r ≠ readyReg d ∧ r ≠ addrReg d ∧ r ≠ sizeReg d)
  | .claim d' _ => decide (d' ≠ d)
  | _ => true

/-- A move that begins to withdraw the published buffer of `d`: an operation of `withdraws`, or a session reset. -/
def moveWithdraws (d : Dir) (m : Move) : Bool :=
  match m with
  | .issue _ surface bytes | .issueByEvent surface bytes =>
    match decode surface bytes with
    | .ok i => withdraws d i
    | .error _ => false
  | .sessionReset _ => true
  | .resume _ | .preempt _ | .openBlock _ | .partCopy _ _ | .device _ | .allocator _ | .source _ | .destination _ => false

/-- Nothing is about to withdraw the published buffer of `d` (R46 d): not the next move, no step of an operation or a reaction in
progress, and not the write of an open block. -/
def State.nothingWithdraws (s : State) (d : Dir) : Prop :=
  (∀ m rest, s.schedule = m :: rest → moveWithdraws d m = false) ∧ s.allSteps (keepsOffered d) ∧
    ∀ o, s.opened.get d = some o → o.word.getLsbD 0 = true

/-- An outcome that is a next state. -/
def isNext {σ φ ρ : Type} : Host.Outcome σ φ ρ → Bool
  | .next _ => true
  | .fault _ => false
  | .refused _ => false

end Sys2Proof.Machine
end

