-- ==== Sys2Proof/Certificates/Slice0/Obligations.lean ====
section
/-! DEFINITION. The statements for the provers, from the numbered rules of spec/. Each docstring names its rules; where a statement rests
on a choice of the model it says so and names the log entry. `s.idle s.caller = true` says that the caller whose turn it is has no
operation in progress (R8), `s.quantum = none` that no preemption of its turn is planned (R253), and `s.opened.get d = none` that no
agent stands between the read and the write of an `atomic_d` block of direction `d` (R262; log 11): the statement
PreemptionChangesNothing carries the results over to preempted turns. `s.returns k r dst` is `s` with the result `r` recorded for caller
`k`, to which it is returned (R240), and no other change. -/

open Sys2Proof Sys2Proof.Machine

/-! ## Creation, decoding and the step -/

/-- R47, R280: the state at the creation of the block, which satisfies the invariants that StepKeepsWellFormed and
StepKeepsWaitersBlocked carry (R46, R62). That an unspecified register is an uninterpreted constant is the model's choice (logs 2, 3). -/
def Obligations.CreationState : Prop :=
  (∀ d, State.reset.slot.get d = .unallocated ∧ State.reset.buf.get d = none ∧ State.reset.gate.get d = .pending ∧
    State.reset.waiter.get d = none ∧ State.reset.handle.get d = none ∧ State.reset.opened.get d = none) ∧
  (∀ r, State.reset.reg r = Config.powerOn r) ∧ (∀ l, State.reset.pending.get l = Config.powerOnPending l) ∧
  State.reset.wf = true ∧ State.reset.memoryWf = true ∧ State.reset.waitersBlocked

/-- A step runs the decoded operation: the issue at the head of the schedule, and the word `withFetchWord` places (log 1). R259, R5, R191:
a caller performs no operation of the event context, SIGNAL among them, and the event context performs nothing else. -/
def Obligations.StepRunsTheIssuedOperation : Prop :=
  (∀ (s : State) (k : Nat) (surface : Surface) (bytes : List Byte) (rest : List Move) (i : Instr),
    s.schedule = .issue k surface bytes :: rest → decode surface bytes = .ok i →
      step s = if eventOnly i then .refused .notAnOrdinaryOperation
        else exec i { s with schedule := rest, caller := k }) ∧
  (∀ (s : State) (surface : Surface) (bytes : List Byte) (rest : List Move) (i : Instr),
    s.schedule = .issueByEvent surface bytes :: rest → decode surface bytes = .ok i →
      step s = if eventOnly i then exec i { s with schedule := rest }
        else .refused .notAnEventOperation) ∧
  (∀ (s : State) (nbits w : Nat) (i : Instr), decodeTableWord nbits w = some i →
    step (s.withFetchWord nbits w) = exec i { withLineRaised (some i) s with
      caller := if eventOnly i then s.caller else issuerOf (some i) s }) ∧
  (∀ i : Instr, eventOnly i = true ↔ i.surface = .event ∨ ∃ d, i = .signal d)

/-- R213, R245: the codes 0x00 to 0x0B are the twelve commands; every other code returns UnsupportedOperation, with nothing changed but
the caller's result. -/
def Obligations.UnknownCommandIsUnsupported : Prop :=
  ∀ (s : State) (k : Nat) (rest : List Move) (a0 a1 a2 a3 a4 a5 a6 a7 code : Byte),
    s.schedule = .issue k .command [a0, a1, a2, a3, a4, a5, a6, a7, code] :: rest →
      if code.toNat ≤ 0x0B then
        ∃ i, i.surface = .command ∧ step s = exec i { s with schedule := rest, caller := k }
      else
        s.idle k = true →
          step s = .next (({ s with schedule := rest, caller := k } : State).returns k (.error .unsupportedOperation) none)

/-- R112: which offsets the CSR decoder accepts, which slot each selects, and the refusal of all others. -/
def Obligations.SlotDecodeIsTheTable : Prop :=
  (∀ (off : Nat) (r : Reg),
    decodeSlot off 32 = .ok r ↔ off < 0x80 ∧ off % 4 = 0 ∧ regAtIndex (off / 4) = some r) ∧
  (∀ (off : Nat) (r : Reg), decodeSlot off 32 = .ok r ↔ off = r.offset) ∧
  (∀ (s : State) (k : Nat) (rest : List Move) (b0 b1 b2 b3 h : Byte),
    s.schedule = .issue k .csr [b0, b1, b2, b3, h] :: rest → (∀ r : Reg, h.toNat % 128 ≠ r.offset) →
      ∃ e, step s = .refused (.undecodable e))

/-- Words written out from the encodings of R96 to R100 and 95_test_vectors.md decode to the operations they stand for. -/
def Obligations.SpecWordsDecode : Prop :=
  decodeTableWord 40 0x8C00001000 = some (.csrWrReadBufferSize 0x1000) ∧
  decodeTableWord 40 0x0CDEADBEEF = some .csrRdReadBufferSize ∧
  decodeTableWord 40 0x3C00000000 = some .csrRdReadFileLengthHi ∧
  decodeTableWord 40 0xF0000000AC = some (.csrWrHostDoneIntr 0xAC) ∧
  decodeTableWord 40 0x7400000000 = none ∧
  decodeTableWord 72 0x070000000123456789 = some (.setWriteOffset 0x123456789) ∧
  decodeTableWord 72 0x03FFFFFFFFFFFFFFFF = some .getMode ∧
  decodeTableWord 72 0x110000000000001000 = some (.beginTransfer .write 0x1000) ∧
  decodeTableWord 72 0x160000000000000000 = some (.wait .read) ∧
  decodeTableWord 72 0x200000000000000000 = some .resetAll ∧
  decodeTableWord 72 0x310000000000001000 = some (.write 0x1000) ∧
  decodeTableWord 8 0x02 = some .evHostDone ∧
  decodeTableWord 8 0x03 = none

/-- R96 to R100, R108: decoding the encoding of any operation gives it back, from its bytes at its surface and from its number. -/
def Obligations.DecodeOfEncode : Prop :=
  ∀ i : Instr, decode i.surface (encode i) = .ok i ∧
    decodeTableWord (8 * (encode i).length) (bytesNumber (encode i)) = some i

/-- R96, R98, R99, R100: decoding drops no bit that matters. The byte with the match bits is kept, and where the operand fills the
rest of the word all bytes are. -/
def Obligations.DecodingKeepsTheWord : Prop :=
  ∀ (surface : Surface) (bytes : List Byte) (i : Instr), decode surface bytes = .ok i →
    i.surface = surface ∧ (encode i).length = bytes.length ∧ (encode i).getLast? = bytes.getLast? ∧
      (carriesData i = true → encode i = bytes)

/-! ## Register transactions -/

/-- R113: a class S register (0x00 to 0x24) returns the latest write, stores all 32 bits of a write and nothing else, does not change on
its own, and before any write has an unspecified value (an uninterpreted constant: log 2). The `ok` a write records is the model's
(log 24). -/
def Obligations.ClassSTransactions : Prop :=
  (∀ (r : SReg) (s : State), s.idle s.caller = true →
    exec (csrRd (.s r)) s = .next (s.returns s.caller (.word (s.reg r)) none)) ∧
  (∀ (r : SReg) (v : Word) (s : State), s.idle s.caller = true →
    exec (csrWr (.s r) v) s = .next ((s.setReg r v).returns s.caller .ok none) ∧
      ∀ r', (s.setReg r v).reg r' = if r' = r then v else s.reg r') ∧
  (∀ (m : DeviceMove) (s t : State), deviceMove m s = .next t → ∀ r, t.reg r = s.reg r) ∧
  (∀ r, State.reset.reg r = Config.powerOn r)

/-- R114: a class D register returns the word the device drives, which the device may change between any two steps; a host write is
refused, with no effect. -/
def Obligations.ClassDTransactions : Prop :=
  (∀ (r : DReg) (s : State), s.idle s.caller = true →
    exec (csrRd (.d r)) s = .next (s.returns s.caller (.word (s.devStatus r)) none)) ∧
  (∀ (r : DReg) (v : Word) (s : State), s.idle s.caller = true →
    exec (csrWr (.d r) v) s = .refused (.statusRegisterWrite r)) ∧
  (∀ (r : DReg) (v : Word) (s : State), deviceMove (.drive r v) s = .next (s.setStatus r v) ∧
    ∀ r', (s.setStatus r v).devStatus r' = if r' = r then v else s.devStatus r')

/-- R115: a write of ACK_VALUE to a line's acknowledge register clears `irq_pending` of that line and stores nothing; any other value, and
any write to 0x44 or 0x48, is refused; a read of any class A register returns a draw. The draw counter (log 8) and the `ok` a write records
(log 24) are the model's. -/
def Obligations.ClassATransactions : Prop :=
  (∀ (l : Line) (s : State), s.idle s.caller = true →
    exec (csrWr (.a (ackReg l)) (Config.ackValue l)) s = .next ((s.setPending l false).returns s.caller .ok none)) ∧
  (∀ (l : Line) (v : Word) (s : State), s.idle s.caller = true → v ≠ Config.ackValue l →
    exec (csrWr (.a (ackReg l)) v) s = .refused (.notTheAcknowledgeValue l)) ∧
  (∀ (r : AReg) (v : Word) (s : State), s.idle s.caller = true →
    r = .readBufferTransferDone ∨ r = .writeBufferTransferDone →
      exec (csrWr (.a r) v) s = .refused (.unusedAcknowledgeWrite r)) ∧
  (∀ (r : AReg) (s : State), s.idle s.caller = true →
    exec (csrRd (.a r)) s = .next (s.drawn.returns s.caller (.word (Config.drawWord s.draws)) none))

/-- R118: a register transaction changes no flag but the bits it stores and `irq_pending`, and no slot, buffer, gate or waiter. -/
def Obligations.RegisterTransactionFrame : Prop :=
  ∀ (i : Instr) (s t : State), i.surface = .csr → exec i s = .next t →
    t.slot = s.slot ∧ t.buf = s.buf ∧ t.gate = s.gate ∧ t.waiter = s.waiter ∧ t.status = s.status ∧ t.handler = s.handler ∧
      (∀ r, r ∉ writtenRegs i → t.reg r = s.reg r) ∧ (∀ l, acknowledges i ≠ some l → t.pending.get l = s.pending.get l) ∧
      (∀ d a, t.bufferByte d a = s.bufferByte d a)

/-- R64: the byte at `off + j` of a class S or class D register is bits [8j+7:8j]. R45, R97, R32 to R34: READY, ADDR, OFFSET and SIZE of the
read direction stand at 0x00 to 0x0C, those of the write direction 0x10 above, and the done and acknowledge registers at their offsets. -/
def Obligations.RegisterRegionLayout : Prop :=
  (∀ (s : State) (j : Nat), j < 4 →
    (∀ r : SReg, s.regionByte ((Reg.s r).offset + j) = some ((s.reg r).extractLsb' (8 * j) 8)) ∧
    (∀ r : DReg, s.regionByte ((Reg.d r).offset + j) = some ((s.devStatus r).extractLsb' (8 * j) 8))) ∧
  (Reg.s (readyReg .read)).offset = 0x00 ∧ (Reg.s (addrReg .read)).offset = 0x04 ∧ (Reg.s (offsetReg .read)).offset = 0x08 ∧
  (Reg.s (sizeReg .read)).offset = 0x0C ∧
  (∀ f ∈ [readyReg, addrReg, offsetReg, sizeReg], (Reg.s (f .write)).offset = (Reg.s (f .read)).offset + 0x10) ∧
  (Reg.s (doneReg .read)).offset = 0x20 ∧ (Reg.s (doneReg .write)).offset = 0x24 ∧
  (Reg.a (ackReg .rc)).offset = 0x68 ∧ (Reg.a (ackReg .wc)).offset = 0x6C ∧ (Reg.a (ackReg .hd)).offset = 0x70

/-! ## The codec -/

/-- R87: reading back a field that was put gives the low bits of the value, and every other field keeps its content. -/
def Obligations.FieldPutThenGet : Prop :=
  ∀ (word : Word) (lo w v : Nat), 1 ≤ w → lo + w ≤ 32 →
    fieldGet (fieldPut word lo w v) lo w = BitVec.ofNat 32 (v % 2 ^ w) ∧
      ∀ lo' w', 1 ≤ w' → lo' + w' ≤ 32 → lo' + w' ≤ lo ∨ lo + w ≤ lo' →
        fieldGet (fieldPut word lo w v) lo' w' = fieldGet word lo' w'

/-- R85: RAW_RESOLUTION and its two round trips. -/
def Obligations.ResolutionCodec : Prop :=
  (∀ word : Word, decodeResolution word = ((word.extractLsb' 0 16).setWidth 32, (word.extractLsb' 16 16).setWidth 32) ∧
    encodeResolution (decodeResolution word).1 (decodeResolution word).2 = word) ∧
  (∀ a b : Word, decodeResolution (encodeResolution a b) = (a &&& 0xFFFF#32, b &&& 0xFFFF#32))

/-- R86: USECASE_MODE: the three decoders read their bits, and undo the encoder up to truncation; bits [31:15] are zero after it. -/
def Obligations.UsecaseCodec : Prop :=
  (∀ word : Word, decodeMode word = word.extractLsb' 0 2 ∧ decodeFormat word = (word.extractLsb' 2 3).setWidth 32 ∧
    decodeFps word = (word.extractLsb' 5 10).setWidth 32) ∧
  (∀ m f p : Word, decodeMode (encodeUsecase m f p) = m.extractLsb' 0 2 ∧ decodeFormat (encodeUsecase m f p) = f &&& 7#32 ∧
    decodeFps (encodeUsecase m f p) = p &&& 0x3FF#32 ∧ (encodeUsecase m f p).extractLsb' 15 17 = 0#17)

/-! ## Control commands -/

/-- R202, R203, R204, R205: GET_RESOLUTION reads 0x54 once; GET_MODE, GET_FPS and GET_FORMAT read 0x58 once; each returns its fields of the
word the device drives. -/
def Obligations.StatusQueriesReturn : Prop :=
  (∀ (a0 a1 a2 a3 a4 a5 a6 a7 : Byte), decode .command [a0, a1, a2, a3, a4, a5, a6, a7, 0x02] = .ok .getResolution ∧
    decode .command [a0, a1, a2, a3, a4, a5, a6, a7, 0x03] = .ok .getMode ∧
    decode .command [a0, a1, a2, a3, a4, a5, a6, a7, 0x04] = .ok .getFps ∧
    decode .command [a0, a1, a2, a3, a4, a5, a6, a7, 0x05] = .ok .getFormat) ∧
  ∀ s : State, s.idle s.caller = true →
    exec .getResolution s = .next (s.returns s.caller
      (.resolution (((s.devStatus .rawResolution).extractLsb' 0 16).setWidth 32)
        (((s.devStatus .rawResolution).extractLsb' 16 16).setWidth 32)) none) ∧
    exec .getMode s = .next (s.returns s.caller (.mode ((s.devStatus .usecaseMode).extractLsb' 0 2)) none) ∧
    exec .getFps s = .next (s.returns s.caller (.fps (((s.devStatus .usecaseMode).extractLsb' 5 10).setWidth 32)) none) ∧
    exec .getFormat s = .next (s.returns s.caller (.format (((s.devStatus .usecaseMode).extractLsb' 2 3).setWidth 32)) none)

/-- R200, R297: GET_FILE_LENGTH is the high word above the low word when nothing comes between its two reads; the low word is read first, so
a device that changes the high word between them makes it pair the old low word with the new high one. -/
def Obligations.FileLengthMayBeTorn : Prop :=
  (∀ s : State, s.idle s.caller = true → s.quantum = none →
    exec .getFileLength s =
      .next (s.returns s.caller (.length (s.devStatus .readFileLengthHi ++ s.devStatus .readFileLength)) none)) ∧
  (∀ (s : State) (lo hi : Word), s.idle s.caller = true → s.quantum = some 0 →
    ∃ t1 t2 t3 t4, exec .getFileLength s = .next t1 ∧ deviceMove (.drive .readFileLength lo) t1 = .next t2 ∧
      deviceMove (.drive .readFileLengthHi hi) t2 = .next t3 ∧ resume (.caller s.caller) t3 = .next t4 ∧
      (t4.callerOf s.caller).result = some (.length (hi ++ s.devStatus .readFileLength)))

/-- R201, R88: GET_ENC_PARAMS returns the 13 fields of the five words under ENC_FIELD_TABLE (OPEN: an uninterpreted table, of which only
that the ranges in one word are disjoint is known, log 6); under any table all fields are 0 when all words are, and all ones when all
words are. -/
def Obligations.EncParamsReturn : Prop :=
  (∀ s : State, s.idle s.caller = true → s.quantum = none →
    exec .getEncParams s = .next (s.returns s.caller
      (.encParams (decodeEncodingParametersBy encTable (s.devStatus .encParams1) (s.devStatus .encParams2)
        (s.devStatus .encParams3) (s.devStatus .encParams4) (s.devStatus .encParams5))) none)) ∧
  (∀ (table : EncFieldTable) (w1 w2 w3 w4 w5 : Word) (k : Fin 13),
    (decodeEncodingParametersBy table w1 w2 w3 w4 w5)[k] =
      (table[k].name, fieldGet #v[w1, w2, w3, w4, w5][table[k].word] table[k].lo.val (encFieldWidth table[k]))) ∧
  (∀ (table : EncFieldTable) (k : Fin 13), 1 ≤ encFieldWidth table[k] ∧ table[k].lo.val + encFieldWidth table[k] ≤ 32 ∧
    (decodeEncodingParametersBy table 0 0 0 0 0)[k].2 = 0 ∧
    (decodeEncodingParametersBy table 0xFFFFFFFF 0xFFFFFFFF 0xFFFFFFFF 0xFFFFFFFF 0xFFFFFFFF)[k].2 =
      BitVec.ofNat 32 (2 ^ encFieldWidth table[k] - 1)) ∧
  (∀ i j : Fin 13, i ≠ j → encTable[i].word = encTable[j].word →
    encTable[i].lo.val + encFieldWidth encTable[i] ≤ encTable[j].lo.val ∨
      encTable[j].lo.val + encFieldWidth encTable[j] ≤ encTable[i].lo.val)

/-- R206, R207, R232: SET_READ_OFFSET, SET_WRITE_OFFSET and SEEK: the OFFSET register takes `o[15:0]`, the READY register's high half-word
`o[31:16]`, its low half-word is kept, and no other register changes. The `ok` that SEEK records is the model's (log 24). -/
def Obligations.OffsetCommands : Prop :=
  ∀ (o : DWord) (s : State), s.idle s.caller = true → s.quantum = none →
    (∀ d, s.opened.get d = none → exec (setOffsetOf d o) s =
      .next (((s.setReg (offsetReg d) ((o.extractLsb' 0 16).setWidth 32)).setReg (readyReg d)
        (o.extractLsb' 16 16 ++ (s.reg (readyReg d)).extractLsb' 0 16)).returns s.caller .ok none)) ∧
    exec (.seek o) s = exec (.setReadOffset o) s

/-- R91: the offset as the device sees it, and its value after a SET_d_OFFSET that no other write has disturbed. -/
def Obligations.DeviceSeesTheOffset : Prop :=
  (∀ (s : State) (d : Dir), deviceOffset s d = (s.reg (readyReg d)).extractLsb' 16 16 ++ (s.reg (offsetReg d)).extractLsb' 0 16) ∧
  (∀ (d : Dir) (o : DWord) (s t u : State), s.quantum = none → s.opened.get d = none → exec (setOffsetOf d o) s = .next t →
    u.reg (readyReg d) = t.reg (readyReg d) → u.reg (offsetReg d) = t.reg (offsetReg d) →
      deviceOffset u d = o.extractLsb' 0 32)

/-- R208, R209, R210, R211: the four done-flag commands write the whole word, and the done flag reads as true or false after it. -/
def Obligations.DoneFlagCommands : Prop :=
  (∀ (a0 a1 a2 a3 a4 a5 a6 a7 : Byte), decode .command [a0, a1, a2, a3, a4, a5, a6, a7, 0x08] = .ok .setReadTransferDone ∧
    decode .command [a0, a1, a2, a3, a4, a5, a6, a7, 0x09] = .ok .clearReadTransferDone ∧
    decode .command [a0, a1, a2, a3, a4, a5, a6, a7, 0x0A] = .ok .setWriteTransferDone ∧
    decode .command [a0, a1, a2, a3, a4, a5, a6, a7, 0x0B] = .ok .clearWriteTransferDone) ∧
  (∀ s : State, s.idle s.caller = true →
    exec .setReadTransferDone s = .next ((s.setReg .readTransferDone 0x000000EF#32).returns s.caller .ok none) ∧
    exec .clearReadTransferDone s = .next ((s.setReg .readTransferDone 0x00000000#32).returns s.caller .ok none) ∧
    exec .setWriteTransferDone s = .next ((s.setReg .writeTransferDone 0x000000EF#32).returns s.caller .ok none) ∧
    exec .clearWriteTransferDone s = .next ((s.setReg .writeTransferDone 0x00000000#32).returns s.caller .ok none)) ∧
  (∀ (s : State) (d : Dir), (s.setReg (doneReg d) 0x000000EF#32).done d = some true ∧
    (s.setReg (doneReg d) 0x00000000#32).done d = some false)

/-- R281, R214: the state after RESET_ALL, register by register; R215: a second RESET_ALL leaves every register as the first left it. -/
def Obligations.StateAfterResetAll : Prop :=
  ∀ s : State, s.idle s.caller = true → s.quantum = none →
    ∃ t u, exec .resetAll s = .next t ∧
      (∀ r, t.reg r = if r = .readBufferAddr ∨ r = .writeBufferAddr then s.reg r else 0) ∧
      t.status = s.status ∧ t.pending = s.pending ∧ t.slot = s.slot ∧ t.buf = s.buf ∧ t.gate = s.gate ∧ t.waiter = s.waiter ∧
      exec .resetAll t = .next u ∧ u.csr = t.csr

/-- R212: a control command, whatever it returns, touches no slot, buffer, gate, waiter or pending mark, and stores no byte of a buffer. -/
def Obligations.CommandFrame : Prop :=
  ∀ (i : Instr) (s t : State), i.surface = .command → exec i s = .next t →
    t.slot = s.slot ∧ t.buf = s.buf ∧ t.gate = s.gate ∧ t.waiter = s.waiter ∧ t.pending = s.pending ∧ t.handler = s.handler ∧
      (∀ r, r ∉ writtenRegs i → t.reg r = s.reg r) ∧ (∀ d a, t.bufferByte d a = s.bufferByte d a)

/-- R216: the half-word law: SET_d_OFFSET keeps READY[15:0], MARK_READY and the completion event keep READY[31:1], none touches a register
of the other direction, and any sequence of such updates ends with the last high half-word and the last ready bit written. -/
def Obligations.HalfWordsArePreserved : Prop :=
  (∀ (d : Dir) (o : DWord) (s t : State), s.quantum = none → s.opened.get d = none → exec (setOffsetOf d o) s = .next t →
    (t.reg (readyReg d)).extractLsb' 0 16 = (s.reg (readyReg d)).extractLsb' 0 16 ∧
      (t.reg (readyReg d)).extractLsb' 16 16 = o.extractLsb' 16 16) ∧
  (∀ (d : Dir) (i : Instr) (s t : State), i = .markReady d ∨ i = completionOf d → s.opened.get d = none → exec i s = .next t →
    (t.reg (readyReg d)).extractLsb' 1 31 = (s.reg (readyReg d)).extractLsb' 1 31) ∧
  (∀ (d d' : Dir) (i : Instr) (s t : State), (i = .markReady d ∨ i = completionOf d ∨ ∃ o, i = setOffsetOf d o) → d' ≠ d →
    exec i s = .next t → t.reg (readyReg d') = s.reg (readyReg d') ∧ t.reg (addrReg d') = s.reg (addrReg d') ∧
      t.reg (offsetReg d') = s.reg (offsetReg d') ∧ t.reg (sizeReg d') = s.reg (sizeReg d')) ∧
  (∀ (us : List ReadyUpdate) (v : Word),
    let final := us.foldl (fun v u => applyReadyUpdate u v) v
    final.extractLsb' 1 15 = v.extractLsb' 1 15 ∧
      final.extractLsb' 16 16 = us.foldl (fun h u => match u with | .putOffHi h' => h' | _ => h) (v.extractLsb' 16 16) ∧
      final.getLsbD 0 = us.foldl (fun b u => match u with | .setReady => true | .clearReady => false | _ => b) (v.getLsbD 0))

/-! ## Transfer buffers -/

/-- R170, R175, R177: BEGIN_TRANSFER.d on an Unallocated slot with a length in 1..LEN_MAX and an allocator that answers a buffer. -/
def Obligations.BeginTransferSucceeds : Prop :=
  ∀ (d : Dir) (len : DWord) (dev : Word) (host : Nat) (s : State), s.idle s.caller = true → s.quantum = none →
    s.slot.get d = .unallocated → 1 ≤ len.toNat → len.toNat ≤ 4294967295 → s.allocator = some (dev, host) →
      ∃ t b, exec (.beginTransfer d len) s = .next t ∧
        (t.callerOf s.caller).result = some (.handle d) ∧
        t.slot = s.slot.set d .published ∧ t.gate = s.gate.set d .pending ∧ t.buf = s.buf.set d (some b) ∧
        b.len = len.toNat ∧ b.devAddr = dev ∧ b.hostAddr = host ∧
        t.reg (addrReg d) = dev ∧ (t.reg (sizeReg d)).toNat = len.toNat ∧
        (∀ r, r ≠ addrReg d → r ≠ sizeReg d → t.reg r = s.reg r) ∧ t.waiter = s.waiter ∧ t.pending = s.pending ∧
        t.handle = s.handle.set d (some { owner := sessionOf s.caller, awaited := false })

/-- R242, R243: the two errors of BEGIN_TRANSFER.d, the in-flight test first (R248); nothing changes but the caller's result. -/
def Obligations.BeginTransferErrors : Prop :=
  ∀ (d : Dir) (len : DWord) (s : State), s.idle s.caller = true → len.toNat ≤ 4294967295 →
    (s.slot.get d = .published ∨ s.slot.get d = .awaitingCompletion →
      exec (.beginTransfer d len) s = .next (s.returns s.caller (.error .transferAlreadyInFlight) none)) ∧
    (s.slot.get d = .unallocated → len = 0 ∨ s.allocator = none →
      exec (.beginTransfer d len) s = .next (s.returns s.caller (.error .allocationFailed) none))

/-- D10: a length above LEN_MAX is outside the operand's domain and refused, not truncated; the operation is then ill formed, and every
other operation is well formed. -/
def Obligations.LengthAboveTheMaximumIsRefused : Prop :=
  (∀ (d : Dir) (len : DWord) (s : State), 4294967295 < len.toNat → exec (.beginTransfer d len) s = .refused .lengthOutOfDomain) ∧
  (∀ (n : DWord) (s : State), 4294967295 < n.toInt → exec (.read n) s = .refused .lengthOutOfDomain ∧
    exec (.write n) s = .refused .lengthOutOfDomain) ∧
  (∀ i : Instr, i.wf = false ↔ (∃ d len, i = .beginTransfer d len ∧ 4294967295 < len.toNat) ∨
    (∃ n, (i = .read n ∨ i = .write n) ∧ 4294967295 < n.toInt))

/-- R171, R175: MARK_READY.d sets bit 0 of READY_d, keeps the rest, and the slot awaits completion; on a slot that is not Published, and on
a handle that is not live or not the caller's own (log 33), it is refused. The `ok` it records is the model's (log 24). -/
def Obligations.MarkReadyPublishes : Prop :=
  ∀ (d : Dir) (s : State), s.idle s.caller = true →
    (s.quantum = none → s.opened.get d = none → s.slot.get d = .published →
      (∃ h, s.handle.get d = some h ∧ h.owner = sessionOf s.caller) →
        exec (.markReady d) s = .next (((s.setReg (readyReg d) (s.reg (readyReg d) ||| 0x00000001#32)).setSlot d
          .awaitingCompletion).returns s.caller .ok none)) ∧
    (s.slot.get d ≠ .published → exec (.markReady d) s = .refused (.slotNotPublished d)) ∧
    (s.slot.get d = .published → (∀ h, s.handle.get d = some h → h.owner ≠ sessionOf s.caller) →
      exec (.markReady d) s = .refused (.handleNotLive d))

/-- R172, R173, R244: COMPLETE_AND_RELEASE.d after its own session's WAIT.d for this transfer returned. R returns the buffer's bytes, as
the host stored or the device wrote them, or CopyFault; W returns no bytes; the buffer is released on every path, and no register, gate,
waiter or pending mark changes. The mark that the WAIT has returned is the model's (log 15); an open block of a procedure of the released
transfer is dropped (log 21). -/
def Obligations.CompleteAndReleaseReturns : Prop :=
  (∀ (s : State) (b : Buffer), s.idle s.caller = true → s.quantum = none → s.slot.get .read = .awaitingCompletion →
    s.handle.get .read = some { owner := sessionOf s.caller, awaited := true } → s.buf.get .read = some b → s.ready .read = false →
      ∃ t, exec (.completeAndRelease .read) s = .next t ∧ t.slot = s.slot.set .read .unallocated ∧ t.buf = s.buf.set .read none ∧
        t.handle = s.handle.set .read none ∧ t.csr = s.csr ∧ t.gate = s.gate ∧ t.waiter = s.waiter ∧ t.pending = s.pending ∧
        (t.callerOf s.caller).result =
          (if s.destinationOk then some (.bytes (b.bytes 0 b.len)) else some (.error .copyFault)) ∧
        (s.destinationOk = true → (t.callerOf s.caller).dst = b.bytes 0 b.len)) ∧
  (∀ s : State, s.idle s.caller = true → s.quantum = none → s.slot.get .write = .awaitingCompletion →
    s.handle.get .write = some { owner := sessionOf s.caller, awaited := true } →
      exec (.completeAndRelease .write) s =
        .next (((((s.setBuf .write none).setSlot .write .unallocated).setHandle .write none).setOpened .write
          ((s.opened.get .write).filter fun o => !o.forTransfer)).returns s.caller (.bytes []) none)) ∧
  (∀ (d : Dir) (s : State), s.idle s.caller = true →
    s.slot.get d ≠ .awaitingCompletion ∨ s.handle.get d ≠ some { owner := sessionOf s.caller, awaited := true } →
      exec (.completeAndRelease d) s = .refused (.completionNotAwaited d))

/-- R174, R246, R104: ABORT.d by the caller blocked in WAIT.d, where HAS_TIMEOUT, ends its operation with Timeout; without HAS_TIMEOUT, or
by an agent that is not so blocked, it is refused. -/
def Obligations.AbortEndsInTimeout : Prop :=
  (∀ (d : Dir) (s : State), s.hasTimeout = true → s.quantum = none → s.opened.get d = none → s.slot.get d = .awaitingCompletion →
    s.waiter.get d = some s.caller → blockedIn s.caller d s = true →
      exec (.abort d) s = .next ((((((s.setReg (readyReg d) (s.reg (readyReg d) &&& 0xFFFFFFFE#32)).setWaiter d none).setBuf d
        none).setSlot d .unallocated).setHandle d none).returns s.caller (.error .timeout) none)) ∧
  (∀ (d : Dir) (s : State), s.hasTimeout = false → exec (.abort d) s = .refused .abortAbsent) ∧
  (∀ (d : Dir) (s : State), s.hasTimeout = true →
    s.slot.get d ≠ .awaitingCompletion ∨ s.waiter.get d = none ∨ blockedIn s.caller d s = false →
      exec (.abort d) s = .refused (.abortNotWaiting d))

/-- R40: the only transitions of a slot, one step of an agent at a time, and which step makes each; the last is a release, or a
session reset's (R282). -/
def Obligations.SlotTransitions : Prop :=
  ∀ (m : Micro) (tk tk' : Task) (s t : State) (d : Dir), micro m tk s = .go tk' t → t.slot.get d ≠ s.slot.get d →
    (s.slot.get d = .unallocated ∧ t.slot.get d = .published ∧ ∃ len, m = .claim d len) ∨
    (s.slot.get d = .published ∧ t.slot.get d = .awaitingCompletion ∧ m = .awaitCompletion d) ∨
    (s.slot.get d ≠ .unallocated ∧ t.slot.get d = .unallocated ∧ (m = .release d ∨ ∃ k, m = .resetDirection d k))

/-- R62: a store of bytes into the buffer of `d` changes those bytes and no other byte, is defined only inside a live buffer, and reads
back. R67: a store may be made in two parts, cut anywhere, with the same end. -/
def Obligations.BufferStoreFrame : Prop :=
  (∀ (s t : State) (d : Dir) (i : Nat) (bs : List Byte), memWrite s d i bs = .ok t →
    ∃ b, s.buf.get d = some b ∧ i + bs.length ≤ b.len ∧ memRead t d i bs.length = .ok bs ∧
      (∀ d' a, d' ≠ d ∨ a < b.hostAddr + i ∨ b.hostAddr + i + bs.length ≤ a → t.bufferByte d' a = s.bufferByte d' a)) ∧
  (∀ (s : State) (d : Dir) (i : Nat) (bs : List Byte),
    (∃ t, memWrite s d i bs = .ok t) ↔ ∃ b, s.buf.get d = some b ∧ i + bs.length ≤ b.len) ∧
  (∀ (s : State) (d : Dir) (i n : Nat), (∃ bs, memRead s d i n = .ok bs) ↔ ∃ b, s.buf.get d = some b ∧ i + n ≤ b.len) ∧
  (∀ (s t : State) (d : Dir) (i m : Nat) (bs : List Byte), memWrite s d i bs = .ok t →
    ∃ u, memWrite s d i (bs.take m) = .ok u ∧ memWrite u d (i + (bs.take m).length) (bs.drop m) = .ok t)

/-! ## The completion gate -/

/-- R190, R192: WAIT.d returns at once when the gate is Signaled and consumes the signal; when it is Pending the caller is held with its
waiter mark set; a second waiter is refused. The same of every WAIT.d, step by step, one in a READ or WRITE too, whatever `slot[d]`
holds and whether the transfer of that READ or WRITE is still there. What a returned WAIT.d does to the mark of a live handle (log 15)
and the `ok` it records (log 24) are the model's. -/
def Obligations.WaitReturnsOrHolds : Prop :=
  (∀ (d : Dir) (s : State), s.idle s.caller = true → s.quantum = none →
    (s.waiter.get d = none → s.gate.get d = .signaled →
      exec (.wait d) s = .next ((((s.setGate d .pending).setWaiter d none).setHandle d ((s.handle.get d).map fun h =>
        { h with awaited := h.awaited || (decide (s.slot.get d = .awaitingCompletion) && decide (sessionOf s.caller = h.owner)) })).returns
          s.caller .ok none)) ∧
    (s.waiter.get d = none → s.gate.get d = .pending →
      ∃ t, exec (.wait d) s = .next t ∧ blockedIn s.caller d t = true ∧ t.waiter = s.waiter.set d (some s.caller) ∧
        t.gate = s.gate ∧ t.csr = s.csr ∧ t.slot = s.slot ∧ t.buf = s.buf ∧ t.pending = s.pending) ∧
    (s.waiter.get d ≠ none → exec (.wait d) s = .refused (.secondWaiter d))) ∧
  (∀ (d : Dir) (k : Nat) (tk : Task) (s : State),
    (s.waiter.get d = none → micro (.waitEnter d k) tk s = .go tk (s.setWaiter d (some k))) ∧
    (s.waiter.get d ≠ none → micro (.waitEnter d k) tk s = .refuse (.secondWaiter d)) ∧
    (s.gate.get d = .pending → micro (.waitBlock d) tk s = .hold) ∧
    (s.gate.get d = .signaled → ∃ t, micro (.waitBlock d) tk s = .go tk t ∧ t.gate = s.gate.set d .pending ∧
      t.waiter = s.waiter.set d none ∧ t.csr = s.csr ∧ t.slot = s.slot ∧ t.buf = s.buf ∧ t.pending = s.pending ∧
      (live tk s = false → ∀ d', t.handle.get d' = s.handle.get d')))

/-- R193: from a Pending gate, SIGNAL.d, SIGNAL.d, WAIT.d, WAIT.d lets the first WAIT.d return and holds the second. The `ok`
that the first records is the model's (log 24). -/
def Obligations.GateIsSingleShot : Prop :=
  ∀ (d : Dir) (s : State), s.idle s.caller = true → s.quantum = none → s.waiter.get d = none → s.gate.get d = .pending →
    ∃ t1 t2 t3 t4, exec (.signal d) s = .next t1 ∧ exec (.signal d) t1 = .next t2 ∧ t2 = t1 ∧ t1.gate.get d = .signaled ∧
      exec (.wait d) t2 = .next t3 ∧ (t3.callerOf s.caller).result = some .ok ∧ t3.idle s.caller = true ∧
      t3.gate.get d = .pending ∧ exec (.wait d) t3 = .next t4 ∧ blockedIn s.caller d t4 = true ∧ t4.gate.get d = .pending ∧
      resume (.caller s.caller) t4 = .next t4

/-- R194: SIGNAL.d turns gate `d` to Signaled and changes nothing else: not the other gate, and not a caller held in the other WAIT. -/
def Obligations.GatesAreIndependent : Prop :=
  ∀ (d d' : Dir) (k : Nat) (s : State), d' ≠ d →
    exec (.signal d) s = .next (s.setGate d .signaled) ∧ (s.setGate d .signaled).gate.get d' = s.gate.get d' ∧
      (s.setGate d .signaled).waiter = s.waiter ∧
      (blockedIn k d' s = true → s.gate.get d' = .pending →
        ∃ t, resume (.caller k) (s.setGate d .signaled) = .next t ∧ blockedIn k d' t = true)

/-- R195: no move of the machine lets a held WAIT.d return while its gate is Pending, for ever: only a Signaled gate, a reset of the
caller's own session by another of its callers, after which the WAIT.d has returned nothing (R282; log 20), or ABORT.d where HAS_TIMEOUT
ends it. The premise `s.waitersBlocked` is the invariant of StepKeepsWaitersBlocked. -/
def Obligations.HeldWaitNeedsASignal : Prop :=
  ∀ (d : Dir) (k : Nat) (m : Move) (s t : State), s.waitersBlocked → blockedIn k d s = true → s.gate.get d = .pending → takeMove m s = .next t →
    blockedIn k d t = true ∨
      ((t.callerOf k).task = none ∧ (t.callerOf k).result = none ∧ s.waiter.get d = some k ∧
        ∃ j, j ≠ k ∧ sessionOf j = sessionOf k ∧ (m = .sessionReset j ∨ m = .resume (.caller j))) ∨
      (s.hasTimeout = true ∧ ∃ bytes, m = .issue k .procedure bytes ∧ decode .procedure bytes = .ok (.abort d))

/-- R196, R292: when a completion event has signalled the gate of a held WAIT.d, in its first turn or when it is resumed after any
preemption, the ready bit is already 0 and the event acknowledged; and right after the step in which WAIT.d returns they still are: the
woken caller reads `ready[d] = 0`. A resumed reaction has steps of its rule left; where it has cleared the bit before, or acknowledged
before, the premise is that nothing has set them again since (a raw write, another MARK_READY.d, another raise). -/
def Obligations.WokenCallerSeesReadyClear : Prop :=
  (∀ (d : Dir) (s t : State), s.gate.get d = .pending → exec (completionOf d) s = .next t → t.gate.get d = .signaled →
    t.ready d = false ∧ t.pending.get (completionLine d) = false) ∧
  (∀ (d : Dir) (s t : State) (tk : Task), s.handler.get (completionLine d) = some tk →
    tk.todo <:+ completionSteps d ∨ (∃ id, tk.todo = [.putReady d id, .ack (completionLine d), .signal d] ∧
      ∃ o, s.opened.get d = some o ∧ o.id = id ∧ o.word.getLsbD 0 = false) →
    (tk.todo <:+ [.ack (completionLine d), .signal d] → s.ready d = false) →
    (tk.todo <:+ [.signal d] → s.pending.get (completionLine d) = false) →
    s.gate.get d = .pending → resume (.handler (completionLine d)) s = .next t → t.gate.get d = .signaled →
      t.ready d = false ∧ t.pending.get (completionLine d) = false) ∧
  (∀ (d : Dir) (k : Nat) (t u : State), t.ready d = false → t.pending.get (completionLine d) = false → t.gate.get d = .signaled →
    blockedIn k d t = true → resume (.caller k) { t with quantum := some 0 } = .next u →
      u.ready d = false ∧ u.pending.get (completionLine d) = false ∧ u.gate.get d = .pending)

/-! ## Events -/

/-- R250, R251: EV_READ_COMPLETE and EV_WRITE_COMPLETE clear the ready bit (bits [31:1] kept), acknowledge and signal, and change nothing
else. They wait for nobody (R257): a block of `d` that was open makes its write first (R262; log 11). -/
def Obligations.CompletionEvents : Prop :=
  ∀ (d : Dir) (s : State), s.pending.get (completionLine d) = true → s.handler.get (completionLine d) = none → s.quantum = none →
    exec (completionOf d) s = .next ((((closeOpen d s).setReg (readyReg d) ((closeOpen d s).reg (readyReg d) &&&
      0xFFFFFFFE#32)).setPending (completionLine d) false).setGate d .signaled) ∧
    (s.opened.get d = none → closeOpen d s = s) ∧
    (∀ o, s.opened.get d = some o → closeOpen d s = (s.setReg (readyReg d) o.word).setOpened d none)

/-- R252: EV_HOST_DONE acknowledges and clears both done flags, and changes nothing else. -/
def Obligations.HostDoneEvent : Prop :=
  ∀ s : State, s.pending.get .hd = true → s.handler.get .hd = none → s.quantum = none →
    exec .evHostDone s =
      .next (((s.setPending .hd false).setReg .readTransferDone 0x00000000#32).setReg .writeTransferDone 0x00000000#32)

/-- R249, R254: a reaction is dispatched only while its line is pending, and two runs on one line do not overlap. -/
def Obligations.EventEntry : Prop :=
  ∀ (l : Line) (s : State),
    (s.handler.get l = none → s.pending.get l = false → exec (eventOf l) s = .refused (.eventNotPending l)) ∧
    (s.handler.get l ≠ none → exec (eventOf l) s = .refused (.agentBusy (.handler l))) ∧
    (s.handler.get l = none → s.pending.get l = true → ∃ t, exec (eventOf l) s = .next t)

/-- R255: two pending events may be handled in either order, with the same final state. -/
def Obligations.EventsInEitherOrder : Prop :=
  ∀ (l l' : Line) (s : State), l ≠ l' → s.pending.get l = true → s.pending.get l' = true → s.handler.get l = none →
    s.handler.get l' = none → s.quantum = none →
      ∃ t t' u, exec (eventOf l) s = .next t ∧ exec (eventOf l') t = .next u ∧
        exec (eventOf l') s = .next t' ∧ exec (eventOf l) t' = .next u

/-- R256: a repeated completion event, raised again after its acknowledge, changes nothing: no second wake is counted. -/
def Obligations.RepeatedEventChangesNothing : Prop :=
  ∀ (d : Dir) (s : State), s.pending.get (completionLine d) = true → s.handler.get (completionLine d) = none → s.quantum = none →
    ∃ t u, exec (completionOf d) s = .next t ∧ deviceMove (.raise (completionLine d)) t = .next u ∧
      exec (completionOf d) u = .next t

/-- R293, R262, R263 (95_test_vectors.md S3, P4): SET_d_OFFSET and the completion event on one direction, in either order or with the event
between the two parts of SET_d_OFFSET, end with the new high half-word and the ready bit 0. -/
def Obligations.InterleavedUpdatesLoseNoBit : Prop :=
  ∀ (d : Dir) (o : DWord) (s : State), s.idle s.caller = true → s.pending.get (completionLine d) = true →
    s.handler.get (completionLine d) = none → s.quantum = none → s.opened.get d = none →
      let final : Word := (o.extractLsb' 16 16 ++ (s.reg (readyReg d)).extractLsb' 0 16) &&& 0xFFFFFFFE#32
      (∃ t u, exec (setOffsetOf d o) s = .next t ∧ exec (completionOf d) t = .next u ∧ u.reg (readyReg d) = final) ∧
      (∃ t u, exec (completionOf d) s = .next t ∧ exec (setOffsetOf d o) t = .next u ∧ u.reg (readyReg d) = final) ∧
      (∃ p t u v, takeMove (.preempt 0) s = .next p ∧ exec (setOffsetOf d o) p = .next t ∧ exec (completionOf d) t = .next u ∧
        resume (.caller s.caller) u = .next v ∧ v.reg (readyReg d) = final ∧
        v.reg (offsetReg d) = (o.extractLsb' 0 16).setWidth 32)

/-- R262, R263, R257: while caller `k` stands between the read and the write of an `atomic_d` block, a raw write of another caller is not
excluded, and the block's write overwrites it; another block of `d` is excluded, and waits for nobody: the open block's write is made
before it, so that its update comes on top. That is the model's form of the exclusion (log 11). -/
def Obligations.ExclusionCoversBlocksOnly : Prop :=
  ∀ (d : Dir) (u : ReadyUpdate) (rest : List Micro) (tk : Task) (k j : Nat) (x : Word) (s : State),
    (s.callerOf k).task = some tk → live tk s = true → tk.todo = .rmw d u :: rest → s.opened.get d = none → j ≠ k → s.idle j = true →
      ∃ t1 t2 t3, takeMove (.openBlock (.caller k)) s = .next t1 ∧ t1.csr = s.csr ∧ (t1.opened.get d).isSome = true ∧
        exec (csrWr (.s (readyReg d)) x) { t1 with caller := j } = .next t2 ∧ t2.reg (readyReg d) = x ∧
        resume (.caller k) { t2 with quantum := some 0 } = .next t3 ∧
        t3.reg (readyReg d) = applyReadyUpdate u (s.reg (readyReg d)) ∧ t3.opened.get d = none ∧
        ∀ u' tk', live tk' t1 = true → ∃ v, micro (.rmw d u') tk' t1 = .go tk' v ∧
          v.reg (readyReg d) = applyReadyUpdate u' (applyReadyUpdate u (s.reg (readyReg d))) ∧ v.opened.get d = none

/-! ## Bulk transfers, the session reset -/

/-- R241, R248: READ and WRITE of a length that is not positive return InvalidArgument before any other test, with nothing changed. A negative
length is two's complement (log 13). -/
def Obligations.BulkLengthMustBePositive : Prop :=
  ∀ (n : DWord) (s : State), s.idle s.caller = true → n.toInt ≤ 0 →
    exec (.read n) s = .next (s.returns s.caller (.error .invalidArgument) none) ∧
    exec (.write n) s = .next (s.returns s.caller (.error .invalidArgument) none)

/-- R230, R231, R233, R234: the errors READ and WRITE have from BEGIN_TRANSFER, with nothing changed; and a WRITE whose copy from the caller
fails returns CopyFault with the buffer released, the ready bit never set, and ADDR and SIZE written (R244). -/
def Obligations.BulkErrors : Prop :=
  (∀ (n : DWord) (d : Dir) (i : Instr) (s : State), s.idle s.caller = true → 0 < n.toInt → n.toInt ≤ 4294967295 →
    (d = .read ∧ i = .read n) ∨ (d = .write ∧ i = .write n) →
      (s.slot.get d ≠ .unallocated → exec i s = .next (s.returns s.caller (.error .transferAlreadyInFlight) none)) ∧
      (s.slot.get d = .unallocated → s.allocator = none →
        exec i s = .next (s.returns s.caller (.error .allocationFailed) none))) ∧
  (∀ (n : DWord) (dev : Word) (host : Nat) (s : State), s.idle s.caller = true → s.quantum = none → 0 < n.toInt →
    n.toInt ≤ 4294967295 → s.slot.get .write = .unallocated → s.allocator = some (dev, host) → s.source = none →
      ∃ t, exec (.write n) s = .next t ∧ (t.callerOf s.caller).result = some (.error .copyFault) ∧ t.slot = s.slot ∧
        t.buf = s.buf.set .write none ∧ t.reg .writeBufferReady = s.reg .writeBufferReady ∧ t.reg .writeBufferAddr = dev ∧
        (t.reg .writeBufferSize).toNat = n.toNat ∧ t.gate = s.gate.set .write .pending ∧ t.waiter = s.waiter ∧
        t.handle = s.handle.set .write none)

/-- R230, R235, R178, R75 (95_test_vectors.md P2): READ n publishes a buffer of n bytes and is held; when the device has filled it, raised RC
and the event has been handled, READ returns exactly the bytes the device wrote, and the buffer is released. -/
def Obligations.ReadEndToEnd : Prop :=
  ∀ (n : DWord) (dev : Word) (host : Nat) (data : List Byte) (s : State), s.idle s.caller = true → s.quantum = none →
    0 < n.toInt → n.toInt ≤ 4294967295 → data.length = n.toNat → s.slot.get .read = .unallocated →
    s.allocator = some (dev, host) → s.waiter.get .read = none → s.handler.get .rc = none → s.destinationOk = true →
    s.opened.get .read = none →
      ∃ t1 t2 t3 t4 t5 b, exec (.read n) s = .next t1 ∧ t1.slot.get .read = .awaitingCompletion ∧ t1.buf.get .read = some b ∧
        t1.offered .read b ∧ b.len = n.toNat ∧ b.devAddr = dev ∧ blockedIn s.caller .read t1 = true ∧
        t1.waiter.get .read = some s.caller ∧ (t1.callerOf s.caller).result = none ∧
        deviceMove (.fill 0 data) t1 = .next t2 ∧ deviceMove (.raise .rc) t2 = .next t3 ∧
        exec .evReadComplete t3 = .next t4 ∧ resume (.caller s.caller) t4 = .next t5 ∧
        (t5.callerOf s.caller).result = some (.bytes data) ∧ (t5.callerOf s.caller).dst = data ∧
        t5.slot = s.slot ∧ t5.buf.get .read = none ∧ t5.gate.get .read = .pending ∧ t5.waiter.get .read = none ∧
        t5.ready .read = false ∧ (t5.reg .readBufferReady).extractLsb' 1 31 = (s.reg .readBufferReady).extractLsb' 1 31

/-- R231, R235, R71, R75 (95_test_vectors.md S6, P1): WRITE n publishes a buffer that holds the caller's n bytes, which the device reads, and
is held; when the device has raised WC and the event has been handled, WRITE returns ok, the buffer is released, and a BEGIN_TRANSFER.W
succeeds at once. -/
def Obligations.WriteEndToEnd : Prop :=
  ∀ (n : DWord) (dev : Word) (host : Nat) (data : List Byte) (s : State), s.idle s.caller = true → s.quantum = none →
    0 < n.toInt → n.toInt ≤ 4294967295 → data.length = n.toNat → s.slot.get .write = .unallocated →
    s.allocator = some (dev, host) → s.source = some data → s.waiter.get .write = none → s.handler.get .wc = none →
    s.opened.get .write = none → s.ready .write = false →
      ∃ t1 t2 t3 t4 t5 t6 b, exec (.write n) s = .next t1 ∧ t1.slot.get .write = .awaitingCompletion ∧
        t1.buf.get .write = some b ∧ t1.offered .write b ∧ b.len = n.toNat ∧ b.devAddr = dev ∧
        blockedIn s.caller .write t1 = true ∧ t1.waiter.get .write = some s.caller ∧
        deviceMove (.fetch 0 n.toNat) t1 = .next t2 ∧ t2.seenBytes = data ∧ deviceMove (.raise .wc) t2 = .next t3 ∧
        exec .evWriteComplete t3 = .next t4 ∧ t4.ready .write = false ∧ t4.gate.get .write = .signaled ∧
        resume (.caller s.caller) t4 = .next t5 ∧ (t5.callerOf s.caller).result = some .ok ∧ t5.slot = s.slot ∧
        t5.buf.get .write = none ∧ t5.gate.get .write = .pending ∧ t5.waiter.get .write = none ∧
        exec (.beginTransfer .write 1) t5 = .next t6 ∧ (t6.callerOf s.caller).result = some (.handle .write)

/-- R282: the session reset by an idle caller: every buffer released, the gates Pending, no waiter, then the registers as after RESET_ALL;
each of its steps is refused while another session has a WAIT outstanding. That a caller of the same session blocked in a WAIT leaves it
and returns nothing, that every step tests for a foreign WAIT, and that the lines for one direction are one step, is the model's reading
(log 20). -/
def Obligations.SessionResetCleansBothDirections : Prop :=
  (∀ (k : Nat) (s : State), s.idle k = true → s.quantum = none → (∀ d j, s.waiter.get d = some j → sessionOf j = sessionOf k) →
      ∃ t, takeMove (.sessionReset k) s = .next t ∧
        (∀ d, t.slot.get d = .unallocated ∧ (s.slot.get d ≠ .unallocated → t.buf.get d = none ∧ t.handle.get d = none) ∧
          t.gate.get d = .pending ∧ t.waiter.get d = none) ∧
        (∀ r, t.reg r = if r = .readBufferAddr ∨ r = .writeBufferAddr then s.reg r else 0) ∧ t.pending = s.pending ∧
        (∀ d j, s.waiter.get d = some j → blockedIn j d s = true → (t.callerOf j).task = none ∧ (t.callerOf j).result = none)) ∧
  (∀ (k j : Nat) (d : Dir) (s : State), s.waiter.get d = some j → sessionOf j ≠ sessionOf k →
    (s.idle k = true → ∃ d', takeMove (.sessionReset k) s = .refused (.foreignWaiter d')) ∧
    ∀ (tk : Task) (m : Micro), m ∈ sessionResetSteps k → ∃ d', micro m tk s = .refuse (.foreignWaiter d'))

/-! ## Frames and invariants of the whole machine -/

/-- The register frame, from the rules' lists of writes (R49, R177, R212, R214): no operation changes a class S register its rule does not
write, and none changes a device-status word. -/
def Obligations.RegisterFrame : Prop :=
  ∀ (i : Instr) (s t : State), exec i s = .next t → t.status = s.status ∧ ∀ r, r ∉ writtenRegs i → t.reg r = s.reg r

/-- The frame of the control state and of buffer memory: slots, buffers, every buffer byte, handles, gates, waiters and pending marks change
only by the operations whose rules change them (R40 to R43, R118, R175, R192, R212); WRITE and READ leave the other direction's bytes
alone. -/
def Obligations.ControlStateFrame : Prop :=
  ∀ (i : Instr) (s t : State), exec i s = .next t →
    (changesSlot i = false → t.slot = s.slot) ∧
    (changesBuffer i = false → t.buf = s.buf ∧ ∀ d a, t.bufferByte d a = s.bufferByte d a) ∧
    (∀ d d' a, changesBuffer i = true → directionOf i = some d → d' ≠ d → t.bufferByte d' a = s.bufferByte d' a) ∧
    (changesBuffer i = false → (∀ d, i ≠ .wait d) → t.handle = s.handle) ∧
    (changesGate i = false → t.gate = s.gate) ∧ (changesWaiter i = false → t.waiter = s.waiter) ∧
    (∀ l, acknowledges i ≠ some l → t.pending.get l = s.pending.get l)

/-- The frame of agents and inputs: an operation changes no input and no schedule, records nothing for another caller, and begins a
reaction only on its own line (R8, R240, R260); it opens no block, and closes one at most of its own direction (log 11); the device's
observations are its own (log 35). -/
def Obligations.EnvironmentFrame : Prop :=
  ∀ (i : Instr) (s t : State), exec i s = .next t →
    t.allocator = s.allocator ∧ t.source = s.source ∧ t.destinationOk = s.destinationOk ∧ t.hasTimeout = s.hasTimeout ∧
      t.schedule = s.schedule ∧ t.caller = s.caller ∧ t.seenWord = s.seenWord ∧ t.seenBytes = s.seenBytes ∧
      (∀ d, t.opened.get d = s.opened.get d ∨ t.opened.get d = none ∧ directionOf i = some d) ∧
      (∀ k, k ≠ s.caller → t.callerOf k = s.callerOf k) ∧ (∀ l, i ≠ eventOf l → t.handler.get l = s.handler.get l)

/-- R49: which operations change each flag, and in which direction: ready bits, done flags, gates and pending marks. An operation never
raises a line. Raw writes of level X stand beside the rule's list (R116). The two clauses of a ready bit speak of a state in which no
block of that direction is open, whose write would come before the operation's own (log 11). -/
def Obligations.FlagWriters : Prop :=
  ∀ (i : Instr) (s t : State) (d : Dir), exec i s = .next t →
    (s.opened.get d = none → s.ready d = false → t.ready d = true → setsReady d i = true) ∧
    (s.opened.get d = none → s.ready d = true → t.ready d = false → clearsReady d i = true) ∧
    (t.done d ≠ s.done d → writesDone d i = true) ∧
    (s.gate.get d = .pending → t.gate.get d = .signaled → signalsGate d i = true) ∧
    (s.gate.get d = .signaled → t.gate.get d = .pending → resetsGate d i = true) ∧
    (∀ l, s.pending.get l = false → t.pending.get l = false) ∧
    (∀ l, s.pending.get l = true → t.pending.get l = false → acknowledges i = some l)

/-- R6, R176, R234: an operation of one direction changes nothing of the other: slot, buffer, gate, waiter, registers and event line. -/
def Obligations.DirectionsAreIndependent : Prop :=
  ∀ (i : Instr) (d d' : Dir) (s t : State), directionOf i = some d → d' ≠ d → exec i s = .next t → sameDirection d' s t

/-- R7, R77, R117: what a step of the device leaves alone (registers, slots, handles, open blocks, gates, waiters, agents, the other
buffer), that it raises or drives only what its move says, what it sees in each register, and that it accesses a buffer only while the
ready bit is 1, inside the published range and inside the live buffer. -/
def Obligations.DeviceFrame : Prop :=
  ∀ (m : DeviceMove) (s t : State), deviceMove m s = .next t →
    t.csr = s.csr ∧ t.slot = s.slot ∧ t.gate = s.gate ∧ t.waiter = s.waiter ∧ t.handler = s.handler ∧ t.callers = s.callers ∧
      t.handle = s.handle ∧ t.opened = s.opened ∧ t.buf.w = s.buf.w ∧ ((∀ r v, m ≠ .drive r v) → t.status = s.status) ∧
      (∀ l, t.pending.get l ≠ s.pending.get l → m = .raise l) ∧
      ((∀ off bytes, m ≠ .fill off bytes) → t.buf.r = s.buf.r) ∧
      (∀ r : SReg, m = .readRegister (.s r) → t.seenWord = some (s.reg r)) ∧
      (∀ r : DReg, m = .readRegister (.d r) → t.seenWord = some (s.devStatus r)) ∧
      (∀ r : AReg, m = .readRegister (.a r) → t.seenWord = some (Config.drawWord s.draws)) ∧
      ((∀ r, m ≠ .readRegister r) → t.seenWord = s.seenWord) ∧ ((∀ off n, m ≠ .fetch off n) → t.seenBytes = s.seenBytes) ∧
      (∀ off bytes, m = .fill off bytes → s.ready .read = true ∧ off + bytes.length ≤ (s.reg .readBufferSize).toNat ∧
        ∃ b, s.buf.get .read = some b ∧ b.devAddr.toNat ≤ (s.reg .readBufferAddr).toNat + off ∧
          deviceIndex s .read b off + bytes.length ≤ b.len ∧
          memRead t .read (deviceIndex s .read b off) bytes.length = .ok bytes ∧
          ∀ a, a < b.hostAddr + deviceIndex s .read b off ∨
            b.hostAddr + deviceIndex s .read b off + bytes.length ≤ a → t.bufferByte .read a = s.bufferByte .read a) ∧
      (∀ off n, m = .fetch off n → s.ready .write = true ∧ off + n ≤ (s.reg .writeBufferSize).toNat ∧
        ∃ b, s.buf.get .write = some b ∧ b.devAddr.toNat ≤ (s.reg .writeBufferAddr).toNat + off ∧
          deviceIndex s .write b off + n ≤ b.len ∧ t.seenBytes = b.bytes (deviceIndex s .write b off) n)

/-- R46 (c), R105: RESET_ALL leaves the reserved bits of READY and OFFSET zero, and every step of the machine but the issue of a raw write
to one of those four registers keeps them zero, as long as no operation in progress is about to store other bits there (no operation of
levels C, P and E ever is: its steps keep that). -/
def Obligations.ReservedBitsStayZero : Prop :=
  (∀ s : State, s.idle s.caller = true → s.quantum = none → s.opened.get .read = none → s.opened.get .write = none →
    ∃ t, exec .resetAll s = .next t ∧ t.reservedZero = true) ∧
  (∀ s t : State, s.reservedZero = true → s.allSteps keepsReserved →
    (∀ k bytes rest i, s.schedule = .issue k .csr bytes :: rest → decode .csr bytes = .ok i → rawReservedWrite i = false) →
      step s = .next t → t.reservedZero = true ∧ t.allSteps keepsReserved)

/-- R46 (d): after BEGIN_TRANSFER.d and MARK_READY.d the buffer is offered (ready 1, ADDR_d and SIZE_d the buffer's), and it stays so, while
the slot awaits completion, under every step of the machine but the issue of the completion event, a raw write to READY_d, ADDR_d or
SIZE_d, RESET_ALL, ABORT.d and a session reset, as long as no operation, reaction or open block in progress is about to do one of these. -/
def Obligations.PublishedBufferStaysOffered : Prop :=
  (∀ (d : Dir) (len : DWord) (s t u : State), s.quantum = none → s.opened.get d = none → s.slot.get d = .unallocated →
    exec (.beginTransfer d len) s = .next t → (t.callerOf s.caller).result = some (.handle d) → exec (.markReady d) t = .next u →
      u.slot.get d = .awaitingCompletion ∧ ∃ b, u.buf.get d = some b ∧ u.offered d b) ∧
  (∀ (d : Dir) (b : Buffer) (s t : State), s.slot.get d = .awaitingCompletion → s.buf.get d = some b → s.offered d b →
    s.nothingWithdraws d → step s = .next t → t.slot.get d = .awaitingCompletion →
      ∃ b', t.buf.get d = some b' ∧ b'.len = b.len ∧ b'.devAddr = b.devAddr ∧ t.offered d b')

/-- R46 (a), (b), R62: every step keeps the invariant: the slot is Unallocated exactly when there is no buffer, a buffer has a length in
1..LEN_MAX, its memory is canonical and inside it, a handle is live only while there is a buffer, and the callers' records are in
canonical order. -/
def Obligations.StepKeepsWellFormed : Prop :=
  ∀ s t : State, s.wf = true → step s = .next t → t.wf = true

/-- R42, R46 (e): every step keeps the invariant that a waiter mark stands for one caller whose operation is blocked in WAIT.d (or is in the
midst of ABORT.d), and that no reaction waits (R257); a session reset in progress is its caller's own session's (R282). -/
def Obligations.StepKeepsWaitersBlocked : Prop :=
  ∀ s t : State, s.waitersBlocked → step s = .next t → t.waitersBlocked

/-- R253: an operation or a reaction that is preempted after any number of its steps and resumed with nothing in between ends as if it had
not been preempted. The grain of preemption is the model's (log 11); SIGNAL is one step and is not preempted. -/
def Obligations.PreemptionChangesNothing : Prop :=
  ∀ (i : Instr) (n : Nat) (s t : State), (∀ d, i ≠ .signal d) → s.quantum = some n → exec i s = .next t →
    resume (agentOf i s) t = exec i { s with quantum := none }
end

