-- ==== Sys2Proof/Laws/State.lean ====
section
/-! SUPPORT. The small laws of the state: one per field per update, the laws of the register bank, of the per-direction and per-line
values and of lists of pairs, so that no later proof unfolds a record update. -/

namespace Sys2Proof.Machine

set_option Elab.async false

/-! ## Fields under updates -/

namespace State

@[simp] theorem setReg_csr (s : State) (r : SReg) (v : Word) : (s.setReg r v).csr = s.csr.set r v := rfl
@[simp] theorem setReg_status (s : State) (r : SReg) (v : Word) : (s.setReg r v).status = s.status := rfl
@[simp] theorem setReg_slot (s : State) (r : SReg) (v : Word) : (s.setReg r v).slot = s.slot := rfl
@[simp] theorem setReg_buf (s : State) (r : SReg) (v : Word) : (s.setReg r v).buf = s.buf := rfl
@[simp] theorem setReg_gate (s : State) (r : SReg) (v : Word) : (s.setReg r v).gate = s.gate := rfl
@[simp] theorem setReg_waiter (s : State) (r : SReg) (v : Word) : (s.setReg r v).waiter = s.waiter := rfl
@[simp] theorem setReg_handle (s : State) (r : SReg) (v : Word) : (s.setReg r v).handle = s.handle := rfl
@[simp] theorem setReg_opened (s : State) (r : SReg) (v : Word) : (s.setReg r v).opened = s.opened := rfl
@[simp] theorem setReg_pending (s : State) (r : SReg) (v : Word) : (s.setReg r v).pending = s.pending := rfl
@[simp] theorem setReg_handler (s : State) (r : SReg) (v : Word) : (s.setReg r v).handler = s.handler := rfl
@[simp] theorem setReg_callers (s : State) (r : SReg) (v : Word) : (s.setReg r v).callers = s.callers := rfl
@[simp] theorem setReg_caller (s : State) (r : SReg) (v : Word) : (s.setReg r v).caller = s.caller := rfl
@[simp] theorem setReg_quantum (s : State) (r : SReg) (v : Word) : (s.setReg r v).quantum = s.quantum := rfl
@[simp] theorem setReg_allocator (s : State) (r : SReg) (v : Word) : (s.setReg r v).allocator = s.allocator := rfl
@[simp] theorem setReg_source (s : State) (r : SReg) (v : Word) : (s.setReg r v).source = s.source := rfl
@[simp] theorem setReg_destinationOk (s : State) (r : SReg) (v : Word) : (s.setReg r v).destinationOk = s.destinationOk := rfl
@[simp] theorem setReg_draws (s : State) (r : SReg) (v : Word) : (s.setReg r v).draws = s.draws := rfl
@[simp] theorem setReg_hasTimeout (s : State) (r : SReg) (v : Word) : (s.setReg r v).hasTimeout = s.hasTimeout := rfl
@[simp] theorem setReg_seenWord (s : State) (r : SReg) (v : Word) : (s.setReg r v).seenWord = s.seenWord := rfl
@[simp] theorem setReg_seenBytes (s : State) (r : SReg) (v : Word) : (s.setReg r v).seenBytes = s.seenBytes := rfl
@[simp] theorem setReg_schedule (s : State) (r : SReg) (v : Word) : (s.setReg r v).schedule = s.schedule := rfl
@[simp] theorem setReg_devStatus (s : State) (r : SReg) (v : Word) (r' : DReg) : (s.setReg r v).devStatus r' = s.devStatus r' := rfl
@[simp] theorem setReg_callerOf (s : State) (r : SReg) (v : Word) (k' : Nat) : (s.setReg r v).callerOf k' = s.callerOf k' := rfl
@[simp] theorem setReg_idle (s : State) (r : SReg) (v : Word) (k' : Nat) : (s.setReg r v).idle k' = s.idle k' := rfl
@[simp] theorem setReg_bufferByte (s : State) (r : SReg) (v : Word) (d' : Dir) (a : Nat) : (s.setReg r v).bufferByte d' a = s.bufferByte d' a := rfl

@[simp] theorem setStatus_csr (s : State) (r : DReg) (v : Word) : (s.setStatus r v).csr = s.csr := rfl
@[simp] theorem setStatus_status (s : State) (r : DReg) (v : Word) : (s.setStatus r v).status = s.status.set r v := rfl
@[simp] theorem setStatus_slot (s : State) (r : DReg) (v : Word) : (s.setStatus r v).slot = s.slot := rfl
@[simp] theorem setStatus_buf (s : State) (r : DReg) (v : Word) : (s.setStatus r v).buf = s.buf := rfl
@[simp] theorem setStatus_gate (s : State) (r : DReg) (v : Word) : (s.setStatus r v).gate = s.gate := rfl
@[simp] theorem setStatus_waiter (s : State) (r : DReg) (v : Word) : (s.setStatus r v).waiter = s.waiter := rfl
@[simp] theorem setStatus_handle (s : State) (r : DReg) (v : Word) : (s.setStatus r v).handle = s.handle := rfl
@[simp] theorem setStatus_opened (s : State) (r : DReg) (v : Word) : (s.setStatus r v).opened = s.opened := rfl
@[simp] theorem setStatus_pending (s : State) (r : DReg) (v : Word) : (s.setStatus r v).pending = s.pending := rfl
@[simp] theorem setStatus_handler (s : State) (r : DReg) (v : Word) : (s.setStatus r v).handler = s.handler := rfl
@[simp] theorem setStatus_callers (s : State) (r : DReg) (v : Word) : (s.setStatus r v).callers = s.callers := rfl
@[simp] theorem setStatus_caller (s : State) (r : DReg) (v : Word) : (s.setStatus r v).caller = s.caller := rfl
@[simp] theorem setStatus_quantum (s : State) (r : DReg) (v : Word) : (s.setStatus r v).quantum = s.quantum := rfl
@[simp] theorem setStatus_allocator (s : State) (r : DReg) (v : Word) : (s.setStatus r v).allocator = s.allocator := rfl
@[simp] theorem setStatus_source (s : State) (r : DReg) (v : Word) : (s.setStatus r v).source = s.source := rfl
@[simp] theorem setStatus_destinationOk (s : State) (r : DReg) (v : Word) : (s.setStatus r v).destinationOk = s.destinationOk := rfl
@[simp] theorem setStatus_draws (s : State) (r : DReg) (v : Word) : (s.setStatus r v).draws = s.draws := rfl
@[simp] theorem setStatus_hasTimeout (s : State) (r : DReg) (v : Word) : (s.setStatus r v).hasTimeout = s.hasTimeout := rfl
@[simp] theorem setStatus_seenWord (s : State) (r : DReg) (v : Word) : (s.setStatus r v).seenWord = s.seenWord := rfl
@[simp] theorem setStatus_seenBytes (s : State) (r : DReg) (v : Word) : (s.setStatus r v).seenBytes = s.seenBytes := rfl
@[simp] theorem setStatus_schedule (s : State) (r : DReg) (v : Word) : (s.setStatus r v).schedule = s.schedule := rfl
@[simp] theorem setStatus_reg (s : State) (r : DReg) (v : Word) (r' : SReg) : (s.setStatus r v).reg r' = s.reg r' := rfl
@[simp] theorem setStatus_callerOf (s : State) (r : DReg) (v : Word) (k' : Nat) : (s.setStatus r v).callerOf k' = s.callerOf k' := rfl
@[simp] theorem setStatus_idle (s : State) (r : DReg) (v : Word) (k' : Nat) : (s.setStatus r v).idle k' = s.idle k' := rfl
@[simp] theorem setStatus_ready (s : State) (r : DReg) (v : Word) (d' : Dir) : (s.setStatus r v).ready d' = s.ready d' := rfl
@[simp] theorem setStatus_bufferByte (s : State) (r : DReg) (v : Word) (d' : Dir) (a : Nat) : (s.setStatus r v).bufferByte d' a = s.bufferByte d' a := rfl

@[simp] theorem setSlot_csr (s : State) (d : Dir) (x : Slot) : (s.setSlot d x).csr = s.csr := rfl
@[simp] theorem setSlot_status (s : State) (d : Dir) (x : Slot) : (s.setSlot d x).status = s.status := rfl
@[simp] theorem setSlot_slot (s : State) (d : Dir) (x : Slot) : (s.setSlot d x).slot = s.slot.set d x := rfl
@[simp] theorem setSlot_buf (s : State) (d : Dir) (x : Slot) : (s.setSlot d x).buf = s.buf := rfl
@[simp] theorem setSlot_gate (s : State) (d : Dir) (x : Slot) : (s.setSlot d x).gate = s.gate := rfl
@[simp] theorem setSlot_waiter (s : State) (d : Dir) (x : Slot) : (s.setSlot d x).waiter = s.waiter := rfl
@[simp] theorem setSlot_handle (s : State) (d : Dir) (x : Slot) : (s.setSlot d x).handle = s.handle := rfl
@[simp] theorem setSlot_opened (s : State) (d : Dir) (x : Slot) : (s.setSlot d x).opened = s.opened := rfl
@[simp] theorem setSlot_pending (s : State) (d : Dir) (x : Slot) : (s.setSlot d x).pending = s.pending := rfl
@[simp] theorem setSlot_handler (s : State) (d : Dir) (x : Slot) : (s.setSlot d x).handler = s.handler := rfl
@[simp] theorem setSlot_callers (s : State) (d : Dir) (x : Slot) : (s.setSlot d x).callers = s.callers := rfl
@[simp] theorem setSlot_caller (s : State) (d : Dir) (x : Slot) : (s.setSlot d x).caller = s.caller := rfl
@[simp] theorem setSlot_quantum (s : State) (d : Dir) (x : Slot) : (s.setSlot d x).quantum = s.quantum := rfl
@[simp] theorem setSlot_allocator (s : State) (d : Dir) (x : Slot) : (s.setSlot d x).allocator = s.allocator := rfl
@[simp] theorem setSlot_source (s : State) (d : Dir) (x : Slot) : (s.setSlot d x).source = s.source := rfl
@[simp] theorem setSlot_destinationOk (s : State) (d : Dir) (x : Slot) : (s.setSlot d x).destinationOk = s.destinationOk := rfl
@[simp] theorem setSlot_draws (s : State) (d : Dir) (x : Slot) : (s.setSlot d x).draws = s.draws := rfl
@[simp] theorem setSlot_hasTimeout (s : State) (d : Dir) (x : Slot) : (s.setSlot d x).hasTimeout = s.hasTimeout := rfl
@[simp] theorem setSlot_seenWord (s : State) (d : Dir) (x : Slot) : (s.setSlot d x).seenWord = s.seenWord := rfl
@[simp] theorem setSlot_seenBytes (s : State) (d : Dir) (x : Slot) : (s.setSlot d x).seenBytes = s.seenBytes := rfl
@[simp] theorem setSlot_schedule (s : State) (d : Dir) (x : Slot) : (s.setSlot d x).schedule = s.schedule := rfl
@[simp] theorem setSlot_reg (s : State) (d : Dir) (x : Slot) (r' : SReg) : (s.setSlot d x).reg r' = s.reg r' := rfl
@[simp] theorem setSlot_devStatus (s : State) (d : Dir) (x : Slot) (r' : DReg) : (s.setSlot d x).devStatus r' = s.devStatus r' := rfl
@[simp] theorem setSlot_callerOf (s : State) (d : Dir) (x : Slot) (k' : Nat) : (s.setSlot d x).callerOf k' = s.callerOf k' := rfl
@[simp] theorem setSlot_idle (s : State) (d : Dir) (x : Slot) (k' : Nat) : (s.setSlot d x).idle k' = s.idle k' := rfl
@[simp] theorem setSlot_ready (s : State) (d : Dir) (x : Slot) (d' : Dir) : (s.setSlot d x).ready d' = s.ready d' := rfl
@[simp] theorem setSlot_bufferByte (s : State) (d : Dir) (x : Slot) (d' : Dir) (a : Nat) : (s.setSlot d x).bufferByte d' a = s.bufferByte d' a := rfl

@[simp] theorem setBuf_csr (s : State) (d : Dir) (x : Option Buffer) : (s.setBuf d x).csr = s.csr := rfl
@[simp] theorem setBuf_status (s : State) (d : Dir) (x : Option Buffer) : (s.setBuf d x).status = s.status := rfl
@[simp] theorem setBuf_slot (s : State) (d : Dir) (x : Option Buffer) : (s.setBuf d x).slot = s.slot := rfl
@[simp] theorem setBuf_buf (s : State) (d : Dir) (x : Option Buffer) : (s.setBuf d x).buf = s.buf.set d x := rfl
@[simp] theorem setBuf_gate (s : State) (d : Dir) (x : Option Buffer) : (s.setBuf d x).gate = s.gate := rfl
@[simp] theorem setBuf_waiter (s : State) (d : Dir) (x : Option Buffer) : (s.setBuf d x).waiter = s.waiter := rfl
@[simp] theorem setBuf_handle (s : State) (d : Dir) (x : Option Buffer) : (s.setBuf d x).handle = s.handle := rfl
@[simp] theorem setBuf_opened (s : State) (d : Dir) (x : Option Buffer) : (s.setBuf d x).opened = s.opened := rfl
@[simp] theorem setBuf_pending (s : State) (d : Dir) (x : Option Buffer) : (s.setBuf d x).pending = s.pending := rfl
@[simp] theorem setBuf_handler (s : State) (d : Dir) (x : Option Buffer) : (s.setBuf d x).handler = s.handler := rfl
@[simp] theorem setBuf_callers (s : State) (d : Dir) (x : Option Buffer) : (s.setBuf d x).callers = s.callers := rfl
@[simp] theorem setBuf_caller (s : State) (d : Dir) (x : Option Buffer) : (s.setBuf d x).caller = s.caller := rfl
@[simp] theorem setBuf_quantum (s : State) (d : Dir) (x : Option Buffer) : (s.setBuf d x).quantum = s.quantum := rfl
@[simp] theorem setBuf_allocator (s : State) (d : Dir) (x : Option Buffer) : (s.setBuf d x).allocator = s.allocator := rfl
@[simp] theorem setBuf_source (s : State) (d : Dir) (x : Option Buffer) : (s.setBuf d x).source = s.source := rfl
@[simp] theorem setBuf_destinationOk (s : State) (d : Dir) (x : Option Buffer) : (s.setBuf d x).destinationOk = s.destinationOk := rfl
@[simp] theorem setBuf_draws (s : State) (d : Dir) (x : Option Buffer) : (s.setBuf d x).draws = s.draws := rfl
@[simp] theorem setBuf_hasTimeout (s : State) (d : Dir) (x : Option Buffer) : (s.setBuf d x).hasTimeout = s.hasTimeout := rfl
@[simp] theorem setBuf_seenWord (s : State) (d : Dir) (x : Option Buffer) : (s.setBuf d x).seenWord = s.seenWord := rfl
@[simp] theorem setBuf_seenBytes (s : State) (d : Dir) (x : Option Buffer) : (s.setBuf d x).seenBytes = s.seenBytes := rfl
@[simp] theorem setBuf_schedule (s : State) (d : Dir) (x : Option Buffer) : (s.setBuf d x).schedule = s.schedule := rfl
@[simp] theorem setBuf_reg (s : State) (d : Dir) (x : Option Buffer) (r' : SReg) : (s.setBuf d x).reg r' = s.reg r' := rfl
@[simp] theorem setBuf_devStatus (s : State) (d : Dir) (x : Option Buffer) (r' : DReg) : (s.setBuf d x).devStatus r' = s.devStatus r' := rfl
@[simp] theorem setBuf_callerOf (s : State) (d : Dir) (x : Option Buffer) (k' : Nat) : (s.setBuf d x).callerOf k' = s.callerOf k' := rfl
@[simp] theorem setBuf_idle (s : State) (d : Dir) (x : Option Buffer) (k' : Nat) : (s.setBuf d x).idle k' = s.idle k' := rfl
@[simp] theorem setBuf_ready (s : State) (d : Dir) (x : Option Buffer) (d' : Dir) : (s.setBuf d x).ready d' = s.ready d' := rfl

@[simp] theorem setGate_csr (s : State) (d : Dir) (x : Gate) : (s.setGate d x).csr = s.csr := rfl
@[simp] theorem setGate_status (s : State) (d : Dir) (x : Gate) : (s.setGate d x).status = s.status := rfl
@[simp] theorem setGate_slot (s : State) (d : Dir) (x : Gate) : (s.setGate d x).slot = s.slot := rfl
@[simp] theorem setGate_buf (s : State) (d : Dir) (x : Gate) : (s.setGate d x).buf = s.buf := rfl
@[simp] theorem setGate_gate (s : State) (d : Dir) (x : Gate) : (s.setGate d x).gate = s.gate.set d x := rfl
@[simp] theorem setGate_waiter (s : State) (d : Dir) (x : Gate) : (s.setGate d x).waiter = s.waiter := rfl
@[simp] theorem setGate_handle (s : State) (d : Dir) (x : Gate) : (s.setGate d x).handle = s.handle := rfl
@[simp] theorem setGate_opened (s : State) (d : Dir) (x : Gate) : (s.setGate d x).opened = s.opened := rfl
@[simp] theorem setGate_pending (s : State) (d : Dir) (x : Gate) : (s.setGate d x).pending = s.pending := rfl
@[simp] theorem setGate_handler (s : State) (d : Dir) (x : Gate) : (s.setGate d x).handler = s.handler := rfl
@[simp] theorem setGate_callers (s : State) (d : Dir) (x : Gate) : (s.setGate d x).callers = s.callers := rfl
@[simp] theorem setGate_caller (s : State) (d : Dir) (x : Gate) : (s.setGate d x).caller = s.caller := rfl
@[simp] theorem setGate_quantum (s : State) (d : Dir) (x : Gate) : (s.setGate d x).quantum = s.quantum := rfl
@[simp] theorem setGate_allocator (s : State) (d : Dir) (x : Gate) : (s.setGate d x).allocator = s.allocator := rfl
@[simp] theorem setGate_source (s : State) (d : Dir) (x : Gate) : (s.setGate d x).source = s.source := rfl
@[simp] theorem setGate_destinationOk (s : State) (d : Dir) (x : Gate) : (s.setGate d x).destinationOk = s.destinationOk := rfl
@[simp] theorem setGate_draws (s : State) (d : Dir) (x : Gate) : (s.setGate d x).draws = s.draws := rfl
@[simp] theorem setGate_hasTimeout (s : State) (d : Dir) (x : Gate) : (s.setGate d x).hasTimeout = s.hasTimeout := rfl
@[simp] theorem setGate_seenWord (s : State) (d : Dir) (x : Gate) : (s.setGate d x).seenWord = s.seenWord := rfl
@[simp] theorem setGate_seenBytes (s : State) (d : Dir) (x : Gate) : (s.setGate d x).seenBytes = s.seenBytes := rfl
@[simp] theorem setGate_schedule (s : State) (d : Dir) (x : Gate) : (s.setGate d x).schedule = s.schedule := rfl
@[simp] theorem setGate_reg (s : State) (d : Dir) (x : Gate) (r' : SReg) : (s.setGate d x).reg r' = s.reg r' := rfl
@[simp] theorem setGate_devStatus (s : State) (d : Dir) (x : Gate) (r' : DReg) : (s.setGate d x).devStatus r' = s.devStatus r' := rfl
@[simp] theorem setGate_callerOf (s : State) (d : Dir) (x : Gate) (k' : Nat) : (s.setGate d x).callerOf k' = s.callerOf k' := rfl
@[simp] theorem setGate_idle (s : State) (d : Dir) (x : Gate) (k' : Nat) : (s.setGate d x).idle k' = s.idle k' := rfl
@[simp] theorem setGate_ready (s : State) (d : Dir) (x : Gate) (d' : Dir) : (s.setGate d x).ready d' = s.ready d' := rfl
@[simp] theorem setGate_bufferByte (s : State) (d : Dir) (x : Gate) (d' : Dir) (a : Nat) : (s.setGate d x).bufferByte d' a = s.bufferByte d' a := rfl

@[simp] theorem setWaiter_csr (s : State) (d : Dir) (x : Option Nat) : (s.setWaiter d x).csr = s.csr := rfl
@[simp] theorem setWaiter_status (s : State) (d : Dir) (x : Option Nat) : (s.setWaiter d x).status = s.status := rfl
@[simp] theorem setWaiter_slot (s : State) (d : Dir) (x : Option Nat) : (s.setWaiter d x).slot = s.slot := rfl
@[simp] theorem setWaiter_buf (s : State) (d : Dir) (x : Option Nat) : (s.setWaiter d x).buf = s.buf := rfl
@[simp] theorem setWaiter_gate (s : State) (d : Dir) (x : Option Nat) : (s.setWaiter d x).gate = s.gate := rfl
@[simp] theorem setWaiter_waiter (s : State) (d : Dir) (x : Option Nat) : (s.setWaiter d x).waiter = s.waiter.set d x := rfl
@[simp] theorem setWaiter_handle (s : State) (d : Dir) (x : Option Nat) : (s.setWaiter d x).handle = s.handle := rfl
@[simp] theorem setWaiter_opened (s : State) (d : Dir) (x : Option Nat) : (s.setWaiter d x).opened = s.opened := rfl
@[simp] theorem setWaiter_pending (s : State) (d : Dir) (x : Option Nat) : (s.setWaiter d x).pending = s.pending := rfl
@[simp] theorem setWaiter_handler (s : State) (d : Dir) (x : Option Nat) : (s.setWaiter d x).handler = s.handler := rfl
@[simp] theorem setWaiter_callers (s : State) (d : Dir) (x : Option Nat) : (s.setWaiter d x).callers = s.callers := rfl
@[simp] theorem setWaiter_caller (s : State) (d : Dir) (x : Option Nat) : (s.setWaiter d x).caller = s.caller := rfl
@[simp] theorem setWaiter_quantum (s : State) (d : Dir) (x : Option Nat) : (s.setWaiter d x).quantum = s.quantum := rfl
@[simp] theorem setWaiter_allocator (s : State) (d : Dir) (x : Option Nat) : (s.setWaiter d x).allocator = s.allocator := rfl
@[simp] theorem setWaiter_source (s : State) (d : Dir) (x : Option Nat) : (s.setWaiter d x).source = s.source := rfl
@[simp] theorem setWaiter_destinationOk (s : State) (d : Dir) (x : Option Nat) : (s.setWaiter d x).destinationOk = s.destinationOk := rfl
@[simp] theorem setWaiter_draws (s : State) (d : Dir) (x : Option Nat) : (s.setWaiter d x).draws = s.draws := rfl
@[simp] theorem setWaiter_hasTimeout (s : State) (d : Dir) (x : Option Nat) : (s.setWaiter d x).hasTimeout = s.hasTimeout := rfl
@[simp] theorem setWaiter_seenWord (s : State) (d : Dir) (x : Option Nat) : (s.setWaiter d x).seenWord = s.seenWord := rfl
@[simp] theorem setWaiter_seenBytes (s : State) (d : Dir) (x : Option Nat) : (s.setWaiter d x).seenBytes = s.seenBytes := rfl
@[simp] theorem setWaiter_schedule (s : State) (d : Dir) (x : Option Nat) : (s.setWaiter d x).schedule = s.schedule := rfl
@[simp] theorem setWaiter_reg (s : State) (d : Dir) (x : Option Nat) (r' : SReg) : (s.setWaiter d x).reg r' = s.reg r' := rfl
@[simp] theorem setWaiter_devStatus (s : State) (d : Dir) (x : Option Nat) (r' : DReg) : (s.setWaiter d x).devStatus r' = s.devStatus r' := rfl
@[simp] theorem setWaiter_callerOf (s : State) (d : Dir) (x : Option Nat) (k' : Nat) : (s.setWaiter d x).callerOf k' = s.callerOf k' := rfl
@[simp] theorem setWaiter_idle (s : State) (d : Dir) (x : Option Nat) (k' : Nat) : (s.setWaiter d x).idle k' = s.idle k' := rfl
@[simp] theorem setWaiter_ready (s : State) (d : Dir) (x : Option Nat) (d' : Dir) : (s.setWaiter d x).ready d' = s.ready d' := rfl
@[simp] theorem setWaiter_bufferByte (s : State) (d : Dir) (x : Option Nat) (d' : Dir) (a : Nat) : (s.setWaiter d x).bufferByte d' a = s.bufferByte d' a := rfl

@[simp] theorem setHandle_csr (s : State) (d : Dir) (x : Option Handle) : (s.setHandle d x).csr = s.csr := rfl
@[simp] theorem setHandle_status (s : State) (d : Dir) (x : Option Handle) : (s.setHandle d x).status = s.status := rfl
@[simp] theorem setHandle_slot (s : State) (d : Dir) (x : Option Handle) : (s.setHandle d x).slot = s.slot := rfl
@[simp] theorem setHandle_buf (s : State) (d : Dir) (x : Option Handle) : (s.setHandle d x).buf = s.buf := rfl
@[simp] theorem setHandle_gate (s : State) (d : Dir) (x : Option Handle) : (s.setHandle d x).gate = s.gate := rfl
@[simp] theorem setHandle_waiter (s : State) (d : Dir) (x : Option Handle) : (s.setHandle d x).waiter = s.waiter := rfl
@[simp] theorem setHandle_handle (s : State) (d : Dir) (x : Option Handle) : (s.setHandle d x).handle = s.handle.set d x := rfl
@[simp] theorem setHandle_opened (s : State) (d : Dir) (x : Option Handle) : (s.setHandle d x).opened = s.opened := rfl
@[simp] theorem setHandle_pending (s : State) (d : Dir) (x : Option Handle) : (s.setHandle d x).pending = s.pending := rfl
@[simp] theorem setHandle_handler (s : State) (d : Dir) (x : Option Handle) : (s.setHandle d x).handler = s.handler := rfl
@[simp] theorem setHandle_callers (s : State) (d : Dir) (x : Option Handle) : (s.setHandle d x).callers = s.callers := rfl
@[simp] theorem setHandle_caller (s : State) (d : Dir) (x : Option Handle) : (s.setHandle d x).caller = s.caller := rfl
@[simp] theorem setHandle_quantum (s : State) (d : Dir) (x : Option Handle) : (s.setHandle d x).quantum = s.quantum := rfl
@[simp] theorem setHandle_allocator (s : State) (d : Dir) (x : Option Handle) : (s.setHandle d x).allocator = s.allocator := rfl
@[simp] theorem setHandle_source (s : State) (d : Dir) (x : Option Handle) : (s.setHandle d x).source = s.source := rfl
@[simp] theorem setHandle_destinationOk (s : State) (d : Dir) (x : Option Handle) : (s.setHandle d x).destinationOk = s.destinationOk := rfl
@[simp] theorem setHandle_draws (s : State) (d : Dir) (x : Option Handle) : (s.setHandle d x).draws = s.draws := rfl
@[simp] theorem setHandle_hasTimeout (s : State) (d : Dir) (x : Option Handle) : (s.setHandle d x).hasTimeout = s.hasTimeout := rfl
@[simp] theorem setHandle_seenWord (s : State) (d : Dir) (x : Option Handle) : (s.setHandle d x).seenWord = s.seenWord := rfl
@[simp] theorem setHandle_seenBytes (s : State) (d : Dir) (x : Option Handle) : (s.setHandle d x).seenBytes = s.seenBytes := rfl
@[simp] theorem setHandle_schedule (s : State) (d : Dir) (x : Option Handle) : (s.setHandle d x).schedule = s.schedule := rfl
@[simp] theorem setHandle_reg (s : State) (d : Dir) (x : Option Handle) (r' : SReg) : (s.setHandle d x).reg r' = s.reg r' := rfl
@[simp] theorem setHandle_devStatus (s : State) (d : Dir) (x : Option Handle) (r' : DReg) : (s.setHandle d x).devStatus r' = s.devStatus r' := rfl
@[simp] theorem setHandle_callerOf (s : State) (d : Dir) (x : Option Handle) (k' : Nat) : (s.setHandle d x).callerOf k' = s.callerOf k' := rfl
@[simp] theorem setHandle_idle (s : State) (d : Dir) (x : Option Handle) (k' : Nat) : (s.setHandle d x).idle k' = s.idle k' := rfl
@[simp] theorem setHandle_ready (s : State) (d : Dir) (x : Option Handle) (d' : Dir) : (s.setHandle d x).ready d' = s.ready d' := rfl
@[simp] theorem setHandle_bufferByte (s : State) (d : Dir) (x : Option Handle) (d' : Dir) (a : Nat) : (s.setHandle d x).bufferByte d' a = s.bufferByte d' a := rfl

@[simp] theorem setOpened_csr (s : State) (d : Dir) (x : Option OpenBlock) : (s.setOpened d x).csr = s.csr := rfl
@[simp] theorem setOpened_status (s : State) (d : Dir) (x : Option OpenBlock) : (s.setOpened d x).status = s.status := rfl
@[simp] theorem setOpened_slot (s : State) (d : Dir) (x : Option OpenBlock) : (s.setOpened d x).slot = s.slot := rfl
@[simp] theorem setOpened_buf (s : State) (d : Dir) (x : Option OpenBlock) : (s.setOpened d x).buf = s.buf := rfl
@[simp] theorem setOpened_gate (s : State) (d : Dir) (x : Option OpenBlock) : (s.setOpened d x).gate = s.gate := rfl
@[simp] theorem setOpened_waiter (s : State) (d : Dir) (x : Option OpenBlock) : (s.setOpened d x).waiter = s.waiter := rfl
@[simp] theorem setOpened_handle (s : State) (d : Dir) (x : Option OpenBlock) : (s.setOpened d x).handle = s.handle := rfl
@[simp] theorem setOpened_opened (s : State) (d : Dir) (x : Option OpenBlock) : (s.setOpened d x).opened = s.opened.set d x := rfl
@[simp] theorem setOpened_pending (s : State) (d : Dir) (x : Option OpenBlock) : (s.setOpened d x).pending = s.pending := rfl
@[simp] theorem setOpened_handler (s : State) (d : Dir) (x : Option OpenBlock) : (s.setOpened d x).handler = s.handler := rfl
@[simp] theorem setOpened_callers (s : State) (d : Dir) (x : Option OpenBlock) : (s.setOpened d x).callers = s.callers := rfl
@[simp] theorem setOpened_caller (s : State) (d : Dir) (x : Option OpenBlock) : (s.setOpened d x).caller = s.caller := rfl
@[simp] theorem setOpened_quantum (s : State) (d : Dir) (x : Option OpenBlock) : (s.setOpened d x).quantum = s.quantum := rfl
@[simp] theorem setOpened_allocator (s : State) (d : Dir) (x : Option OpenBlock) : (s.setOpened d x).allocator = s.allocator := rfl
@[simp] theorem setOpened_source (s : State) (d : Dir) (x : Option OpenBlock) : (s.setOpened d x).source = s.source := rfl
@[simp] theorem setOpened_destinationOk (s : State) (d : Dir) (x : Option OpenBlock) : (s.setOpened d x).destinationOk = s.destinationOk := rfl
@[simp] theorem setOpened_draws (s : State) (d : Dir) (x : Option OpenBlock) : (s.setOpened d x).draws = s.draws := rfl
@[simp] theorem setOpened_hasTimeout (s : State) (d : Dir) (x : Option OpenBlock) : (s.setOpened d x).hasTimeout = s.hasTimeout := rfl
@[simp] theorem setOpened_seenWord (s : State) (d : Dir) (x : Option OpenBlock) : (s.setOpened d x).seenWord = s.seenWord := rfl
@[simp] theorem setOpened_seenBytes (s : State) (d : Dir) (x : Option OpenBlock) : (s.setOpened d x).seenBytes = s.seenBytes := rfl
@[simp] theorem setOpened_schedule (s : State) (d : Dir) (x : Option OpenBlock) : (s.setOpened d x).schedule = s.schedule := rfl
@[simp] theorem setOpened_reg (s : State) (d : Dir) (x : Option OpenBlock) (r' : SReg) : (s.setOpened d x).reg r' = s.reg r' := rfl
@[simp] theorem setOpened_devStatus (s : State) (d : Dir) (x : Option OpenBlock) (r' : DReg) : (s.setOpened d x).devStatus r' = s.devStatus r' := rfl
@[simp] theorem setOpened_callerOf (s : State) (d : Dir) (x : Option OpenBlock) (k' : Nat) : (s.setOpened d x).callerOf k' = s.callerOf k' := rfl
@[simp] theorem setOpened_idle (s : State) (d : Dir) (x : Option OpenBlock) (k' : Nat) : (s.setOpened d x).idle k' = s.idle k' := rfl
@[simp] theorem setOpened_ready (s : State) (d : Dir) (x : Option OpenBlock) (d' : Dir) : (s.setOpened d x).ready d' = s.ready d' := rfl
@[simp] theorem setOpened_bufferByte (s : State) (d : Dir) (x : Option OpenBlock) (d' : Dir) (a : Nat) : (s.setOpened d x).bufferByte d' a = s.bufferByte d' a := rfl

@[simp] theorem setPending_csr (s : State) (l : Line) (x : Bool) : (s.setPending l x).csr = s.csr := rfl
@[simp] theorem setPending_status (s : State) (l : Line) (x : Bool) : (s.setPending l x).status = s.status := rfl
@[simp] theorem setPending_slot (s : State) (l : Line) (x : Bool) : (s.setPending l x).slot = s.slot := rfl
@[simp] theorem setPending_buf (s : State) (l : Line) (x : Bool) : (s.setPending l x).buf = s.buf := rfl
@[simp] theorem setPending_gate (s : State) (l : Line) (x : Bool) : (s.setPending l x).gate = s.gate := rfl
@[simp] theorem setPending_waiter (s : State) (l : Line) (x : Bool) : (s.setPending l x).waiter = s.waiter := rfl
@[simp] theorem setPending_handle (s : State) (l : Line) (x : Bool) : (s.setPending l x).handle = s.handle := rfl
@[simp] theorem setPending_opened (s : State) (l : Line) (x : Bool) : (s.setPending l x).opened = s.opened := rfl
@[simp] theorem setPending_pending (s : State) (l : Line) (x : Bool) : (s.setPending l x).pending = s.pending.set l x := rfl
@[simp] theorem setPending_handler (s : State) (l : Line) (x : Bool) : (s.setPending l x).handler = s.handler := rfl
@[simp] theorem setPending_callers (s : State) (l : Line) (x : Bool) : (s.setPending l x).callers = s.callers := rfl
@[simp] theorem setPending_caller (s : State) (l : Line) (x : Bool) : (s.setPending l x).caller = s.caller := rfl
@[simp] theorem setPending_quantum (s : State) (l : Line) (x : Bool) : (s.setPending l x).quantum = s.quantum := rfl
@[simp] theorem setPending_allocator (s : State) (l : Line) (x : Bool) : (s.setPending l x).allocator = s.allocator := rfl
@[simp] theorem setPending_source (s : State) (l : Line) (x : Bool) : (s.setPending l x).source = s.source := rfl
@[simp] theorem setPending_destinationOk (s : State) (l : Line) (x : Bool) : (s.setPending l x).destinationOk = s.destinationOk := rfl
@[simp] theorem setPending_draws (s : State) (l : Line) (x : Bool) : (s.setPending l x).draws = s.draws := rfl
@[simp] theorem setPending_hasTimeout (s : State) (l : Line) (x : Bool) : (s.setPending l x).hasTimeout = s.hasTimeout := rfl
@[simp] theorem setPending_seenWord (s : State) (l : Line) (x : Bool) : (s.setPending l x).seenWord = s.seenWord := rfl
@[simp] theorem setPending_seenBytes (s : State) (l : Line) (x : Bool) : (s.setPending l x).seenBytes = s.seenBytes := rfl
@[simp] theorem setPending_schedule (s : State) (l : Line) (x : Bool) : (s.setPending l x).schedule = s.schedule := rfl
@[simp] theorem setPending_reg (s : State) (l : Line) (x : Bool) (r' : SReg) : (s.setPending l x).reg r' = s.reg r' := rfl
@[simp] theorem setPending_devStatus (s : State) (l : Line) (x : Bool) (r' : DReg) : (s.setPending l x).devStatus r' = s.devStatus r' := rfl
@[simp] theorem setPending_callerOf (s : State) (l : Line) (x : Bool) (k' : Nat) : (s.setPending l x).callerOf k' = s.callerOf k' := rfl
@[simp] theorem setPending_idle (s : State) (l : Line) (x : Bool) (k' : Nat) : (s.setPending l x).idle k' = s.idle k' := rfl
@[simp] theorem setPending_ready (s : State) (l : Line) (x : Bool) (d' : Dir) : (s.setPending l x).ready d' = s.ready d' := rfl
@[simp] theorem setPending_bufferByte (s : State) (l : Line) (x : Bool) (d' : Dir) (a : Nat) : (s.setPending l x).bufferByte d' a = s.bufferByte d' a := rfl

@[simp] theorem setHandler_csr (s : State) (l : Line) (x : Option Task) : (s.setHandler l x).csr = s.csr := rfl
@[simp] theorem setHandler_status (s : State) (l : Line) (x : Option Task) : (s.setHandler l x).status = s.status := rfl
@[simp] theorem setHandler_slot (s : State) (l : Line) (x : Option Task) : (s.setHandler l x).slot = s.slot := rfl
@[simp] theorem setHandler_buf (s : State) (l : Line) (x : Option Task) : (s.setHandler l x).buf = s.buf := rfl
@[simp] theorem setHandler_gate (s : State) (l : Line) (x : Option Task) : (s.setHandler l x).gate = s.gate := rfl
@[simp] theorem setHandler_waiter (s : State) (l : Line) (x : Option Task) : (s.setHandler l x).waiter = s.waiter := rfl
@[simp] theorem setHandler_handle (s : State) (l : Line) (x : Option Task) : (s.setHandler l x).handle = s.handle := rfl
@[simp] theorem setHandler_opened (s : State) (l : Line) (x : Option Task) : (s.setHandler l x).opened = s.opened := rfl
@[simp] theorem setHandler_pending (s : State) (l : Line) (x : Option Task) : (s.setHandler l x).pending = s.pending := rfl
@[simp] theorem setHandler_handler (s : State) (l : Line) (x : Option Task) : (s.setHandler l x).handler = s.handler.set l x := rfl
@[simp] theorem setHandler_callers (s : State) (l : Line) (x : Option Task) : (s.setHandler l x).callers = s.callers := rfl
@[simp] theorem setHandler_caller (s : State) (l : Line) (x : Option Task) : (s.setHandler l x).caller = s.caller := rfl
@[simp] theorem setHandler_quantum (s : State) (l : Line) (x : Option Task) : (s.setHandler l x).quantum = s.quantum := rfl
@[simp] theorem setHandler_allocator (s : State) (l : Line) (x : Option Task) : (s.setHandler l x).allocator = s.allocator := rfl
@[simp] theorem setHandler_source (s : State) (l : Line) (x : Option Task) : (s.setHandler l x).source = s.source := rfl
@[simp] theorem setHandler_destinationOk (s : State) (l : Line) (x : Option Task) : (s.setHandler l x).destinationOk = s.destinationOk := rfl
@[simp] theorem setHandler_draws (s : State) (l : Line) (x : Option Task) : (s.setHandler l x).draws = s.draws := rfl
@[simp] theorem setHandler_hasTimeout (s : State) (l : Line) (x : Option Task) : (s.setHandler l x).hasTimeout = s.hasTimeout := rfl
@[simp] theorem setHandler_seenWord (s : State) (l : Line) (x : Option Task) : (s.setHandler l x).seenWord = s.seenWord := rfl
@[simp] theorem setHandler_seenBytes (s : State) (l : Line) (x : Option Task) : (s.setHandler l x).seenBytes = s.seenBytes := rfl
@[simp] theorem setHandler_schedule (s : State) (l : Line) (x : Option Task) : (s.setHandler l x).schedule = s.schedule := rfl
@[simp] theorem setHandler_reg (s : State) (l : Line) (x : Option Task) (r' : SReg) : (s.setHandler l x).reg r' = s.reg r' := rfl
@[simp] theorem setHandler_devStatus (s : State) (l : Line) (x : Option Task) (r' : DReg) : (s.setHandler l x).devStatus r' = s.devStatus r' := rfl
@[simp] theorem setHandler_callerOf (s : State) (l : Line) (x : Option Task) (k' : Nat) : (s.setHandler l x).callerOf k' = s.callerOf k' := rfl
@[simp] theorem setHandler_idle (s : State) (l : Line) (x : Option Task) (k' : Nat) : (s.setHandler l x).idle k' = s.idle k' := rfl
@[simp] theorem setHandler_ready (s : State) (l : Line) (x : Option Task) (d' : Dir) : (s.setHandler l x).ready d' = s.ready d' := rfl
@[simp] theorem setHandler_bufferByte (s : State) (l : Line) (x : Option Task) (d' : Dir) (a : Nat) : (s.setHandler l x).bufferByte d' a = s.bufferByte d' a := rfl

@[simp] theorem setCaller_csr (s : State) (k : Nat) (x : Caller) : (s.setCaller k x).csr = s.csr := rfl
@[simp] theorem setCaller_status (s : State) (k : Nat) (x : Caller) : (s.setCaller k x).status = s.status := rfl
@[simp] theorem setCaller_slot (s : State) (k : Nat) (x : Caller) : (s.setCaller k x).slot = s.slot := rfl
@[simp] theorem setCaller_buf (s : State) (k : Nat) (x : Caller) : (s.setCaller k x).buf = s.buf := rfl
@[simp] theorem setCaller_gate (s : State) (k : Nat) (x : Caller) : (s.setCaller k x).gate = s.gate := rfl
@[simp] theorem setCaller_waiter (s : State) (k : Nat) (x : Caller) : (s.setCaller k x).waiter = s.waiter := rfl
@[simp] theorem setCaller_handle (s : State) (k : Nat) (x : Caller) : (s.setCaller k x).handle = s.handle := rfl
@[simp] theorem setCaller_opened (s : State) (k : Nat) (x : Caller) : (s.setCaller k x).opened = s.opened := rfl
@[simp] theorem setCaller_pending (s : State) (k : Nat) (x : Caller) : (s.setCaller k x).pending = s.pending := rfl
@[simp] theorem setCaller_handler (s : State) (k : Nat) (x : Caller) : (s.setCaller k x).handler = s.handler := rfl
@[simp] theorem setCaller_callers (s : State) (k : Nat) (x : Caller) : (s.setCaller k x).callers = assocSet k x s.callers := rfl
@[simp] theorem setCaller_caller (s : State) (k : Nat) (x : Caller) : (s.setCaller k x).caller = s.caller := rfl
@[simp] theorem setCaller_quantum (s : State) (k : Nat) (x : Caller) : (s.setCaller k x).quantum = s.quantum := rfl
@[simp] theorem setCaller_allocator (s : State) (k : Nat) (x : Caller) : (s.setCaller k x).allocator = s.allocator := rfl
@[simp] theorem setCaller_source (s : State) (k : Nat) (x : Caller) : (s.setCaller k x).source = s.source := rfl
@[simp] theorem setCaller_destinationOk (s : State) (k : Nat) (x : Caller) : (s.setCaller k x).destinationOk = s.destinationOk := rfl
@[simp] theorem setCaller_draws (s : State) (k : Nat) (x : Caller) : (s.setCaller k x).draws = s.draws := rfl
@[simp] theorem setCaller_hasTimeout (s : State) (k : Nat) (x : Caller) : (s.setCaller k x).hasTimeout = s.hasTimeout := rfl
@[simp] theorem setCaller_seenWord (s : State) (k : Nat) (x : Caller) : (s.setCaller k x).seenWord = s.seenWord := rfl
@[simp] theorem setCaller_seenBytes (s : State) (k : Nat) (x : Caller) : (s.setCaller k x).seenBytes = s.seenBytes := rfl
@[simp] theorem setCaller_schedule (s : State) (k : Nat) (x : Caller) : (s.setCaller k x).schedule = s.schedule := rfl
@[simp] theorem setCaller_reg (s : State) (k : Nat) (x : Caller) (r' : SReg) : (s.setCaller k x).reg r' = s.reg r' := rfl
@[simp] theorem setCaller_devStatus (s : State) (k : Nat) (x : Caller) (r' : DReg) : (s.setCaller k x).devStatus r' = s.devStatus r' := rfl
@[simp] theorem setCaller_ready (s : State) (k : Nat) (x : Caller) (d' : Dir) : (s.setCaller k x).ready d' = s.ready d' := rfl
@[simp] theorem setCaller_bufferByte (s : State) (k : Nat) (x : Caller) (d' : Dir) (a : Nat) : (s.setCaller k x).bufferByte d' a = s.bufferByte d' a := rfl

@[simp] theorem drawn_csr (s : State) : (s.drawn).csr = s.csr := rfl
@[simp] theorem drawn_status (s : State) : (s.drawn).status = s.status := rfl
@[simp] theorem drawn_slot (s : State) : (s.drawn).slot = s.slot := rfl
@[simp] theorem drawn_buf (s : State) : (s.drawn).buf = s.buf := rfl
@[simp] theorem drawn_gate (s : State) : (s.drawn).gate = s.gate := rfl
@[simp] theorem drawn_waiter (s : State) : (s.drawn).waiter = s.waiter := rfl
@[simp] theorem drawn_handle (s : State) : (s.drawn).handle = s.handle := rfl
@[simp] theorem drawn_opened (s : State) : (s.drawn).opened = s.opened := rfl
@[simp] theorem drawn_pending (s : State) : (s.drawn).pending = s.pending := rfl
@[simp] theorem drawn_handler (s : State) : (s.drawn).handler = s.handler := rfl
@[simp] theorem drawn_callers (s : State) : (s.drawn).callers = s.callers := rfl
@[simp] theorem drawn_caller (s : State) : (s.drawn).caller = s.caller := rfl
@[simp] theorem drawn_quantum (s : State) : (s.drawn).quantum = s.quantum := rfl
@[simp] theorem drawn_allocator (s : State) : (s.drawn).allocator = s.allocator := rfl
@[simp] theorem drawn_source (s : State) : (s.drawn).source = s.source := rfl
@[simp] theorem drawn_destinationOk (s : State) : (s.drawn).destinationOk = s.destinationOk := rfl
@[simp] theorem drawn_draws (s : State) : (s.drawn).draws = s.draws + 1 := rfl
@[simp] theorem drawn_hasTimeout (s : State) : (s.drawn).hasTimeout = s.hasTimeout := rfl
@[simp] theorem drawn_seenWord (s : State) : (s.drawn).seenWord = s.seenWord := rfl
@[simp] theorem drawn_seenBytes (s : State) : (s.drawn).seenBytes = s.seenBytes := rfl
@[simp] theorem drawn_schedule (s : State) : (s.drawn).schedule = s.schedule := rfl
@[simp] theorem drawn_reg (s : State) (r' : SReg) : (s.drawn).reg r' = s.reg r' := rfl
@[simp] theorem drawn_devStatus (s : State) (r' : DReg) : (s.drawn).devStatus r' = s.devStatus r' := rfl
@[simp] theorem drawn_callerOf (s : State) (k' : Nat) : (s.drawn).callerOf k' = s.callerOf k' := rfl
@[simp] theorem drawn_idle (s : State) (k' : Nat) : (s.drawn).idle k' = s.idle k' := rfl
@[simp] theorem drawn_ready (s : State) (d' : Dir) : (s.drawn).ready d' = s.ready d' := rfl
@[simp] theorem drawn_bufferByte (s : State) (d' : Dir) (a : Nat) : (s.drawn).bufferByte d' a = s.bufferByte d' a := rfl

@[simp] theorem turnOver_csr (s : State) : (s.turnOver).csr = s.csr := rfl
@[simp] theorem turnOver_status (s : State) : (s.turnOver).status = s.status := rfl
@[simp] theorem turnOver_slot (s : State) : (s.turnOver).slot = s.slot := rfl
@[simp] theorem turnOver_buf (s : State) : (s.turnOver).buf = s.buf := rfl
@[simp] theorem turnOver_gate (s : State) : (s.turnOver).gate = s.gate := rfl
@[simp] theorem turnOver_waiter (s : State) : (s.turnOver).waiter = s.waiter := rfl
@[simp] theorem turnOver_handle (s : State) : (s.turnOver).handle = s.handle := rfl
@[simp] theorem turnOver_opened (s : State) : (s.turnOver).opened = s.opened := rfl
@[simp] theorem turnOver_pending (s : State) : (s.turnOver).pending = s.pending := rfl
@[simp] theorem turnOver_handler (s : State) : (s.turnOver).handler = s.handler := rfl
@[simp] theorem turnOver_callers (s : State) : (s.turnOver).callers = s.callers := rfl
@[simp] theorem turnOver_caller (s : State) : (s.turnOver).caller = s.caller := rfl
@[simp] theorem turnOver_quantum (s : State) : (s.turnOver).quantum = none := rfl
@[simp] theorem turnOver_allocator (s : State) : (s.turnOver).allocator = s.allocator := rfl
@[simp] theorem turnOver_source (s : State) : (s.turnOver).source = s.source := rfl
@[simp] theorem turnOver_destinationOk (s : State) : (s.turnOver).destinationOk = s.destinationOk := rfl
@[simp] theorem turnOver_draws (s : State) : (s.turnOver).draws = s.draws := rfl
@[simp] theorem turnOver_hasTimeout (s : State) : (s.turnOver).hasTimeout = s.hasTimeout := rfl
@[simp] theorem turnOver_seenWord (s : State) : (s.turnOver).seenWord = s.seenWord := rfl
@[simp] theorem turnOver_seenBytes (s : State) : (s.turnOver).seenBytes = s.seenBytes := rfl
@[simp] theorem turnOver_schedule (s : State) : (s.turnOver).schedule = s.schedule := rfl
@[simp] theorem turnOver_reg (s : State) (r' : SReg) : (s.turnOver).reg r' = s.reg r' := rfl
@[simp] theorem turnOver_devStatus (s : State) (r' : DReg) : (s.turnOver).devStatus r' = s.devStatus r' := rfl
@[simp] theorem turnOver_callerOf (s : State) (k' : Nat) : (s.turnOver).callerOf k' = s.callerOf k' := rfl
@[simp] theorem turnOver_idle (s : State) (k' : Nat) : (s.turnOver).idle k' = s.idle k' := rfl
@[simp] theorem turnOver_ready (s : State) (d' : Dir) : (s.turnOver).ready d' = s.ready d' := rfl
@[simp] theorem turnOver_bufferByte (s : State) (d' : Dir) (a : Nat) : (s.turnOver).bufferByte d' a = s.bufferByte d' a := rfl

end State

/-! ## The register bank -/

@[simp] theorem Csr.get_set_same (c : Csr) (r : SReg) (v : Word) : (c.set r v).get r = v := by cases r <;> rfl

@[simp] theorem Csr.get_set_other (c : Csr) (r r' : SReg) (v : Word) (h : r' ≠ r) : (c.set r v).get r' = c.get r' := by
  cases r <;> cases r' <;> first | rfl | exact absurd rfl h

/-- A bank is what its registers hold. -/
theorem Csr.ext_get (c c' : Csr) (h : ∀ r, c.get r = c'.get r) : c = c' := by
  cases c; cases c'
  have h0 := h .readBufferReady
  have h1 := h .readBufferAddr
  have h2 := h .readBufferOffset
  have h3 := h .readBufferSize
  have h4 := h .writeBufferReady
  have h5 := h .writeBufferAddr
  have h6 := h .writeBufferOffset
  have h7 := h .writeBufferSize
  have h8 := h .readTransferDone
  have h9 := h .writeTransferDone
  simp only [Csr.get] at h0 h1 h2 h3 h4 h5 h6 h7 h8 h9
  subst h0 h1 h2 h3 h4 h5 h6 h7 h8 h9
  rfl

@[simp] theorem Status.get_set_same (c : Status) (r : DReg) (v : Word) : (c.set r v).get r = v := by cases r <;> rfl

@[simp] theorem Status.get_set_other (c : Status) (r r' : DReg) (v : Word) (h : r' ≠ r) :
    (c.set r v).get r' = c.get r' := by
  cases r <;> cases r' <;> first | rfl | exact absurd rfl h

@[simp] theorem State.setReg_reg_same (s : State) (r : SReg) (v : Word) : (s.setReg r v).reg r = v :=
  Csr.get_set_same s.csr r v

theorem State.setReg_reg_other (s : State) (r r' : SReg) (v : Word) (h : r' ≠ r) : (s.setReg r v).reg r' = s.reg r' :=
  Csr.get_set_other s.csr r r' v h

/-- Reading a register after a write of one: the value written there, the old value elsewhere (R113). -/
theorem State.setReg_reg (s : State) (r r' : SReg) (v : Word) :
    (s.setReg r v).reg r' = if r' = r then v else s.reg r' := by
  by_cases h : r' = r
  · subst h; simp
  · simp [h, State.setReg_reg_other]

@[simp] theorem State.setStatus_devStatus_same (s : State) (r : DReg) (v : Word) : (s.setStatus r v).devStatus r = v :=
  Status.get_set_same s.status r v

theorem State.setStatus_devStatus_other (s : State) (r r' : DReg) (v : Word) (h : r' ≠ r) :
    (s.setStatus r v).devStatus r' = s.devStatus r' :=
  Status.get_set_other s.status r r' v h

/-! ## Directions and lines -/

@[simp] theorem PerDir.get_set_same {α : Type} (p : PerDir α) (d : Dir) (x : α) : (p.set d x).get d = x := by
  cases d <;> rfl

@[simp] theorem PerDir.get_set_other {α : Type} (p : PerDir α) (d d' : Dir) (x : α) (h : d' ≠ d) :
    (p.set d x).get d' = p.get d' := by
  cases d <;> cases d' <;> first | rfl | exact absurd rfl h

@[simp] theorem PerDir.set_set {α : Type} (p : PerDir α) (d : Dir) (x y : α) : (p.set d x).set d y = p.set d y := by
  cases d <;> rfl

@[simp] theorem PerDir.set_get {α : Type} (p : PerDir α) (d : Dir) : p.set d (p.get d) = p := by
  cases d <;> rfl

@[simp] theorem PerLine.get_set_same {α : Type} (p : PerLine α) (l : Line) (x : α) : (p.set l x).get l = x := by
  cases l <;> rfl

@[simp] theorem PerLine.get_set_other {α : Type} (p : PerLine α) (l l' : Line) (x : α) (h : l' ≠ l) :
    (p.set l x).get l' = p.get l' := by
  cases l <;> cases l' <;> first | rfl | exact absurd rfl h

@[simp] theorem PerLine.set_set {α : Type} (p : PerLine α) (l : Line) (x y : α) : (p.set l x).set l y = p.set l y := by
  cases l <;> rfl

@[simp] theorem PerLine.set_get {α : Type} (p : PerLine α) (l : Line) : p.set l (p.get l) = p := by
  cases l <;> rfl

/-- The two directions have different registers, each its own. -/
@[simp] theorem readyReg_inj (d d' : Dir) : readyReg d = readyReg d' ↔ d = d' := by cases d <;> cases d' <;> decide
@[simp] theorem addrReg_inj (d d' : Dir) : addrReg d = addrReg d' ↔ d = d' := by cases d <;> cases d' <;> decide
@[simp] theorem offsetReg_inj (d d' : Dir) : offsetReg d = offsetReg d' ↔ d = d' := by cases d <;> cases d' <;> decide
@[simp] theorem sizeReg_inj (d d' : Dir) : sizeReg d = sizeReg d' ↔ d = d' := by cases d <;> cases d' <;> decide
@[simp] theorem readyReg_ne_addrReg (d d' : Dir) : readyReg d ≠ addrReg d' := by cases d <;> cases d' <;> decide
@[simp] theorem readyReg_ne_offsetReg (d d' : Dir) : readyReg d ≠ offsetReg d' := by cases d <;> cases d' <;> decide
@[simp] theorem readyReg_ne_sizeReg (d d' : Dir) : readyReg d ≠ sizeReg d' := by cases d <;> cases d' <;> decide
@[simp] theorem addrReg_ne_sizeReg (d d' : Dir) : addrReg d ≠ sizeReg d' := by cases d <;> cases d' <;> decide
@[simp] theorem addrReg_ne_offsetReg (d d' : Dir) : addrReg d ≠ offsetReg d' := by cases d <;> cases d' <;> decide
@[simp] theorem sizeReg_ne_offsetReg (d d' : Dir) : sizeReg d ≠ offsetReg d' := by cases d <;> cases d' <;> decide

/-! ## Lists of pairs -/

@[simp] theorem assocGet_set_same {α : Type} (k : Nat) (x : α) (l : List (Nat × α)) : assocGet k (assocSet k x l) = some x := by
  induction l with
  | nil => simp [assocSet, assocGet]
  | cons p rest ih =>
    obtain ⟨j, y⟩ := p
    simp only [assocSet]
    split
    · simp [assocGet]
    · split
      · simp [assocGet]
      · next _ h => simp [assocGet, h, ih]

@[simp] theorem assocGet_set_other {α : Type} (k k' : Nat) (x : α) (l : List (Nat × α)) (h : k' ≠ k) :
    assocGet k' (assocSet k x l) = assocGet k' l := by
  induction l with
  | nil => simp [assocSet, assocGet, h]
  | cons p rest ih =>
    obtain ⟨j, y⟩ := p
    simp only [assocSet]
    split
    · simp [assocGet, h]
    · split
      · next _ e => subst e; simp [assocGet, h]
      · simp [assocGet, ih]

/-- Setting a key twice leaves the last value. -/
@[simp] theorem assocSet_set {α : Type} (k : Nat) (x y : α) (l : List (Nat × α)) :
    assocSet k y (assocSet k x l) = assocSet k y l := by
  induction l with
  | nil => simp [assocSet]
  | cons p rest ih =>
    obtain ⟨j, z⟩ := p
    simp only [assocSet]
    split
    · simp [assocSet]
    · split
      · next _ e => subst e; simp [assocSet]
      · next h1 h2 => simp [assocSet, h1, h2, ih]

theorem risingKeys_cons {α : Type} (j : Nat) (y : α) (l : List (Nat × α)) :
    risingKeys ((j, y) :: l) = true ↔ (∀ p, l.head? = some p → j < p.1) ∧ risingKeys l = true := by
  cases l with
  | nil => simp [risingKeys]
  | cons p rest => obtain ⟨k, z⟩ := p; simp [risingKeys]

theorem head?_assocSet {α : Type} (k : Nat) (x : α) (l : List (Nat × α)) (p : Nat × α)
    (h : (assocSet k x l).head? = some p) : p = (k, x) ∨ l.head? = some p := by
  cases l with
  | nil => left; simpa [assocSet, eq_comm] using h
  | cons q rest =>
    obtain ⟨j, y⟩ := q
    simp only [assocSet] at h
    split at h
    · left; simpa [eq_comm] using h
    · split at h
      · left; simpa [eq_comm] using h
      · right; simpa using h

/-- Setting a key keeps the canonical form. -/
theorem risingKeys_set {α : Type} (k : Nat) (x : α) (l : List (Nat × α)) (h : risingKeys l = true) :
    risingKeys (assocSet k x l) = true := by
  induction l with
  | nil => rfl
  | cons p rest ih =>
    obtain ⟨j, y⟩ := p
    have h' := (risingKeys_cons j y rest).1 h
    simp only [assocSet]
    split
    · next hlt => exact (risingKeys_cons k x _).2 ⟨by simpa using hlt, h⟩
    · split
      · next _ e => subst e; exact (risingKeys_cons k x rest).2 h'
      · next h1 h2 =>
        refine (risingKeys_cons j y _).2 ⟨?_, ih h'.2⟩
        intro q hq
        rcases head?_assocSet k x rest q hq with rfl | hq'
        · simp only; omega
        · exact h'.1 q hq'

/-! ## Callers -/

@[simp] theorem State.setCaller_callerOf_same (s : State) (k : Nat) (x : Caller) : (s.setCaller k x).callerOf k = x := by
  simp [State.callerOf]

theorem State.setCaller_callerOf_other (s : State) (k k' : Nat) (x : Caller) (h : k' ≠ k) :
    (s.setCaller k x).callerOf k' = s.callerOf k' := by
  simp [State.callerOf, h]

/-- The record of a caller after another or the same one has been set. -/
theorem State.setCaller_callerOf (s : State) (k k' : Nat) (x : Caller) :
    (s.setCaller k x).callerOf k' = if k' = k then x else s.callerOf k' := by
  by_cases h : k' = k
  · subst h; simp
  · simp [h, State.setCaller_callerOf_other]

@[simp] theorem State.setCaller_setCaller (s : State) (k : Nat) (x y : Caller) :
    (s.setCaller k x).setCaller k y = s.setCaller k y := by
  simp [State.setCaller]

end Sys2Proof.Machine
end

