-- ==== Sys2Proof/Laws/Codec.lean ====
section
/-! SUPPORT. The laws of the codec: which bits the half-word updates keep, and that bytes taken apart join again. -/

namespace Sys2Proof.Machine

set_option Elab.async false

theorem setReadyBit_getLsbD (v : Word) (i : Nat) (h : i < 32) :
    (setReadyBit v).getLsbD i = (decide (i = 0) || v.getLsbD i) := by
  have key : ∀ j : Fin 32, (0x00000001 : Word).getLsbD j.val = decide (j.val = 0) := by decide
  simp only [setReadyBit, BitVec.getLsbD_or, key ⟨i, h⟩, Bool.or_comm]

theorem clearReadyBit_getLsbD (v : Word) (i : Nat) (h : i < 32) :
    (clearReadyBit v).getLsbD i = (!decide (i = 0) && v.getLsbD i) := by
  have key : ∀ j : Fin 32, (0xFFFFFFFE : Word).getLsbD j.val = !decide (j.val = 0) := by decide
  simp only [clearReadyBit, BitVec.getLsbD_and, key ⟨i, h⟩, Bool.and_comm]

theorem putOffHi_getLsbD (v : Word) (x : Half) (i : Nat) (h : i < 32) :
    (putOffHi v x).getLsbD i = if i < 16 then v.getLsbD i else x.getLsbD (i - 16) := by
  have key : ∀ j : Fin 32, (0x0000FFFF : Word).getLsbD j.val = decide (j.val < 16) := by decide
  rw [putOffHi, BitVec.getLsbD_or, BitVec.getLsbD_and, key ⟨i, h⟩, BitVec.getLsbD_shiftLeft, BitVec.getLsbD_setWidth]
  by_cases hi : i < 16
  · simp [hi]
  · simp [hi, h, show i - 16 < 32 by omega]

@[simp] theorem applyReadyUpdate_setReady (v : Word) : applyReadyUpdate .setReady v = setReadyBit v := rfl
@[simp] theorem applyReadyUpdate_clearReady (v : Word) : applyReadyUpdate .clearReady v = clearReadyBit v := rfl
@[simp] theorem applyReadyUpdate_putOffHi (h : Half) (v : Word) : applyReadyUpdate (.putOffHi h) v = putOffHi v h := rfl

/-- Clearing the ready bit and changing the offset's high half touch different bits (R216). -/
theorem putOffHi_clearReadyBit (v : Word) (h : Half) : putOffHi (clearReadyBit v) h = clearReadyBit (putOffHi v h) := by
  apply BitVec.eq_of_getLsbD_eq
  intro i hi
  rw [putOffHi_getLsbD _ _ _ hi, clearReadyBit_getLsbD _ _ hi, clearReadyBit_getLsbD _ _ hi, putOffHi_getLsbD _ _ _ hi]
  by_cases h16 : i < 16
  · simp [h16]
  · simp [h16, show i ≠ 0 by omega]

/-- Setting the ready bit and changing the offset's high half touch different bits (R216). -/
theorem putOffHi_setReadyBit (v : Word) (h : Half) : putOffHi (setReadyBit v) h = setReadyBit (putOffHi v h) := by
  apply BitVec.eq_of_getLsbD_eq
  intro i hi
  rw [putOffHi_getLsbD _ _ _ hi, setReadyBit_getLsbD _ _ hi, setReadyBit_getLsbD _ _ hi, putOffHi_getLsbD _ _ _ hi]
  by_cases h16 : i < 16
  · simp [h16]
  · simp [h16, show i ≠ 0 by omega]

end Sys2Proof.Machine

namespace Sys2Proof

theorem byteOf_getLsbD {w : Nat} (v : BitVec w) (i j : Nat) (h : j < 8) : (byteOf v i).getLsbD j = v.getLsbD (8 * i + j) := by
  simp [byteOf, h]

/-- The four bytes of a word, joined, are the word. -/
theorem joinWord_bytes (v : Word) : joinWord (byteOf v 0) (byteOf v 1) (byteOf v 2) (byteOf v 3) = v := by
  apply BitVec.eq_of_getLsbD_eq
  intro i hi
  simp only [joinWord, BitVec.getLsbD_append, byteOf, BitVec.getLsbD_extractLsb']
  rcases (by omega : i < 8 ∨ (8 ≤ i ∧ i < 16) ∨ (16 ≤ i ∧ i < 24) ∨ (24 ≤ i ∧ i < 32)) with h | h | h | h
  · simp [show i < 8 by omega]
  · simp [show ¬ i < 8 by omega, show i - 8 < 8 by omega, show 8 + (i - 8) = i by omega]
  · simp [show ¬ i < 8 by omega, show ¬ i - 8 < 8 by omega, show i - 8 - 8 < 8 by omega, show 16 + (i - 8 - 8) = i by omega]
  · simp [show ¬ i < 8 by omega, show ¬ i - 8 < 8 by omega, show ¬ i - 8 - 8 < 8 by omega,
      show i - 8 - 8 - 8 < 8 by omega, show 24 + (i - 8 - 8 - 8) = i by omega]

/-- The eight bytes of a 64-bit value, joined, are the value. -/
theorem joinDWord_bytes (v : DWord) :
    joinDWord (byteOf v 0) (byteOf v 1) (byteOf v 2) (byteOf v 3) (byteOf v 4) (byteOf v 5) (byteOf v 6) (byteOf v 7) = v := by
  apply BitVec.eq_of_getLsbD_eq
  intro i hi
  simp only [joinDWord, BitVec.getLsbD_append, byteOf, BitVec.getLsbD_extractLsb']
  obtain ⟨q, r, hq, hr, rfl⟩ : ∃ q r, q < 8 ∧ r < 8 ∧ i = 8 * q + r := ⟨i / 8, i % 8, by omega, by omega, by omega⟩
  rcases (by omega : q = 0 ∨ q = 1 ∨ q = 2 ∨ q = 3 ∨ q = 4 ∨ q = 5 ∨ q = 6 ∨ q = 7) with
    rfl | rfl | rfl | rfl | rfl | rfl | rfl | rfl
  · simp [hr]
  · simp [hr]
  · simp [hr, show ¬ 16 + r < 8 by omega, show 16 + r - 8 - 8 = r by omega, show ¬ (16 + r - 8 < 8) by omega]
  · simp [hr, show ¬ 24 + r < 8 by omega, show ¬ (24 + r - 8 < 8) by omega, show ¬ (24 + r - 8 - 8 < 8) by omega,
      show 24 + r - 8 - 8 - 8 = r by omega]
  · simp [hr, show ¬ 32 + r < 8 by omega, show ¬ (32 + r - 8 < 8) by omega, show ¬ (32 + r - 8 - 8 < 8) by omega,
      show ¬ (32 + r - 8 - 8 - 8 < 8) by omega, show 32 + r - 8 - 8 - 8 - 8 = r by omega]
  · simp [hr, show ¬ 40 + r < 8 by omega, show ¬ (40 + r - 8 < 8) by omega, show ¬ (40 + r - 8 - 8 < 8) by omega,
      show ¬ (40 + r - 8 - 8 - 8 < 8) by omega, show ¬ (40 + r - 8 - 8 - 8 - 8 < 8) by omega,
      show 40 + r - 8 - 8 - 8 - 8 - 8 = r by omega]
  · simp [hr, show ¬ 48 + r < 8 by omega, show ¬ (48 + r - 8 < 8) by omega, show ¬ (48 + r - 8 - 8 < 8) by omega,
      show ¬ (48 + r - 8 - 8 - 8 < 8) by omega, show ¬ (48 + r - 8 - 8 - 8 - 8 < 8) by omega,
      show ¬ (48 + r - 8 - 8 - 8 - 8 - 8 < 8) by omega, show 48 + r - 8 - 8 - 8 - 8 - 8 - 8 = r by omega]
  · simp [hr, show ¬ 56 + r < 8 by omega, show ¬ (56 + r - 8 < 8) by omega, show ¬ (56 + r - 8 - 8 < 8) by omega,
      show ¬ (56 + r - 8 - 8 - 8 < 8) by omega, show ¬ (56 + r - 8 - 8 - 8 - 8 < 8) by omega,
      show ¬ (56 + r - 8 - 8 - 8 - 8 - 8 < 8) by omega, show ¬ (56 + r - 8 - 8 - 8 - 8 - 8 - 8 < 8) by omega,
      show 56 + r - 8 - 8 - 8 - 8 - 8 - 8 - 8 = r by omega]

/-- A read transaction's bytes decode to it, whatever its data bits would be. -/
theorem decodeCsr_encodeRd (r : Reg) : decodeCsr (encodeRd r) = .ok (csrRd r) := by
  rcases r with r | r | r <;> cases r <;> decide

/-- A write transaction's bytes decode to it. -/
theorem decodeCsr_encodeWr (r : Reg) (v : Word) : decodeCsr (encodeWr r v) = .ok (csrWr r v) := by
  have h : ∀ b0 b1 b2 b3 : Byte,
      decodeCsr [b0, b1, b2, b3, BitVec.ofNat 8 (128 + r.offset)] = .ok (csrWr r (joinWord b0 b1 b2 b3)) := by
    intro b0 b1 b2 b3
    rcases r with r | r | r <;> cases r <;> rfl
  rw [encodeWr, h, joinWord_bytes]

/-- A Format C word decodes by its code and argument. -/
theorem decodeCommand_encodeArg (c : Byte) (arg : DWord) : decodeCommand (encodeArg c arg) = commandOf c.toNat arg := by
  rw [encodeArg, decodeCommand, joinDWord_bytes]

/-- A Format P word decodes by its selector and argument. -/
theorem decodeProcedure_encodeArg (c : Byte) (arg : DWord) : decodeProcedure (encodeArg c arg) = procedureOf c.toNat arg := by
  rw [encodeArg, decodeProcedure, joinDWord_bytes]

end Sys2Proof
end

