-- ==== Sys2Proof/Laws/Memory.lean ====
section
/-! SUPPORT. The laws of buffer memory: read after write, bytes elsewhere unchanged, and that every memory operation keeps the
canonical form and stays inside the buffer. -/

namespace Sys2Proof.Machine

set_option Elab.async false

@[simp] theorem Memory.read_write_same (m : Memory) (a : Nat) (b : Byte) : (m.write a b).read a = some b :=
  assocGet_set_same a b m

theorem Memory.read_write_other (m : Memory) (a a' : Nat) (b : Byte) (h : a' ≠ a) : (m.write a b).read a' = m.read a' :=
  assocGet_set_other a a' b m h

theorem Memory.wf_write (m : Memory) (a : Nat) (b : Byte) (h : m.wf = true) : (m.write a b).wf = true :=
  risingKeys_set a b m h

theorem Memory.wf_writeBytes (bs : List Byte) (m : Memory) (a : Nat) (h : m.wf = true) : (m.writeBytes a bs).wf = true := by
  induction bs generalizing m a with
  | nil => exact h
  | cons b bs ih => exact ih (m.write a b) (a + 1) (Memory.wf_write m a b h)

/-- Bytes outside the written range are unchanged. -/
theorem Memory.read_writeBytes_outside (bs : List Byte) (m : Memory) (a a' : Nat) (h : a' < a ∨ a + bs.length ≤ a') :
    (m.writeBytes a bs).read a' = m.read a' := by
  induction bs generalizing m a with
  | nil => rfl
  | cons b bs ih =>
    simp only [List.length_cons] at h
    rw [Memory.writeBytes, ih (m.write a b) (a + 1) (by omega), Memory.read_write_other m a a' b (by omega)]

/-- A byte inside the written range is the byte written there. -/
theorem Memory.read_writeBytes_inside (bs : List Byte) (m : Memory) (a i : Nat) (h : i < bs.length) :
    (m.writeBytes a bs).read (a + i) = some bs[i] := by
  induction bs generalizing m a i with
  | nil => simp at h
  | cons b bs ih =>
    rw [Memory.writeBytes]
    cases i with
    | zero =>
      rw [Memory.read_writeBytes_outside bs _ (a + 1) (a + 0) (by omega)]
      simp
    | succ i =>
      have := ih (m.write a b) (a + 1) i (by simpa using h)
      rw [show a + (i + 1) = a + 1 + i by omega, this]
      simp

/-- An entry of the list after a write is the new one or an old one. -/
theorem mem_assocSet {α : Type} (k : Nat) (x : α) (l : List (Nat × α)) (p : Nat × α) (h : p ∈ assocSet k x l) :
    p = (k, x) ∨ p ∈ l := by
  induction l with
  | nil => left; simpa [assocSet] using h
  | cons q rest ih =>
    obtain ⟨j, y⟩ := q
    simp only [assocSet] at h
    split at h
    · simpa using h
    · split at h
      · rcases List.mem_cons.1 h with h | h
        · exact .inl h
        · exact .inr (List.mem_cons_of_mem _ h)
      · rcases List.mem_cons.1 h with h | h
        · exact .inr (by simp [h])
        · rcases ih h with h | h
          · exact .inl h
          · exact .inr (List.mem_cons_of_mem _ h)

theorem Memory.within_iff (m : Memory) (lo hi : Nat) : m.within lo hi = true ↔ ∀ c ∈ m, lo ≤ c.1 ∧ c.1 < hi := by
  simp [Memory.within, List.all_eq_true]

theorem Memory.within_writeBytes (bs : List Byte) (m : Memory) (a lo hi : Nat) (h : m.within lo hi = true) (hlo : lo ≤ a)
    (hhi : a + bs.length ≤ hi) : (m.writeBytes a bs).within lo hi = true := by
  induction bs generalizing m a with
  | nil => exact h
  | cons b bs ih =>
    simp only [List.length_cons] at hhi
    refine ih (m.write a b) (a + 1) ?_ (by omega) (by omega)
    rw [Memory.within_iff] at h ⊢
    intro c hc
    rcases mem_assocSet a b m c hc with rfl | hc
    · simp only; omega
    · exact h c hc

/-! ## Buffers -/

@[simp] theorem Buffer.store_len (b : Buffer) (i : Nat) (bs : List Byte) : (b.store i bs).len = b.len := rfl
@[simp] theorem Buffer.store_devAddr (b : Buffer) (i : Nat) (bs : List Byte) : (b.store i bs).devAddr = b.devAddr := rfl
@[simp] theorem Buffer.store_hostAddr (b : Buffer) (i : Nat) (bs : List Byte) : (b.store i bs).hostAddr = b.hostAddr := rfl
@[simp] theorem Buffer.store_serial (b : Buffer) (i : Nat) (bs : List Byte) : (b.store i bs).serial = b.serial := rfl

/-- Bytes written in two parts, cut anywhere (R67). -/
theorem Memory.writeBytes_append (xs ys : List Byte) (m : Memory) (a : Nat) :
    m.writeBytes a (xs ++ ys) = (m.writeBytes a xs).writeBytes (a + xs.length) ys := by
  induction xs generalizing m a with
  | nil => rfl
  | cons x xs ih =>
    simp only [List.cons_append, Memory.writeBytes, ih, List.length_cons]
    congr 1
    omega

theorem Buffer.store_append (b : Buffer) (i : Nat) (xs ys : List Byte) :
    b.store i (xs ++ ys) = (b.store i xs).store (i + xs.length) ys := by
  simp only [Buffer.store, Memory.writeBytes_append, Nat.add_assoc]

theorem Buffer.wf_iff (b : Buffer) :
    b.wf = true ↔ 1 ≤ b.len ∧ b.len ≤ Config.lenMax ∧ Memory.wf b.content = true ∧
      Memory.within b.content b.hostAddr (b.hostAddr + b.len) = true := by
  simp [Buffer.wf, and_assoc]

/-- A store inside the buffer keeps it well formed. -/
theorem Buffer.wf_store (b : Buffer) (i : Nat) (bs : List Byte) (h : b.wf = true) (hi : i + bs.length ≤ b.len) :
    (b.store i bs).wf = true := by
  rw [Buffer.wf_iff] at h ⊢
  refine ⟨h.1, h.2.1, Memory.wf_writeBytes bs _ _ h.2.2.1, ?_⟩
  exact Memory.within_writeBytes bs b.content (b.hostAddr + i) b.hostAddr (b.hostAddr + b.len) h.2.2.2 (by omega) (by omega)

/-- A byte that a store wrote. -/
theorem Buffer.byte_store_inside (b : Buffer) (i j : Nat) (bs : List Byte) (h : j < bs.length) :
    (b.store i bs).byte (i + j) = bs[j] := by
  simp only [Buffer.byte, Buffer.store]
  rw [← Nat.add_assoc, Memory.read_writeBytes_inside bs b.content (b.hostAddr + i) j h]
  rfl

/-- A byte that a store did not write. -/
theorem Buffer.byte_store_outside (b : Buffer) (i j : Nat) (bs : List Byte) (h : j < i ∨ i + bs.length ≤ j) :
    (b.store i bs).byte j = b.byte j := by
  simp only [Buffer.byte, Buffer.store]
  rw [Memory.read_writeBytes_outside bs b.content (b.hostAddr + i) (b.hostAddr + j) (by omega)]

@[simp] theorem Buffer.bytes_length (b : Buffer) (i n : Nat) : (b.bytes i n).length = n := by simp [Buffer.bytes]

/-- The bytes of the range just stored are the stored bytes. -/
theorem Buffer.bytes_store_self (b : Buffer) (i : Nat) (bs : List Byte) : (b.store i bs).bytes i bs.length = bs := by
  apply List.ext_getElem
  · simp
  · intro j h1 h2
    simp [Buffer.bytes, Buffer.byte_store_inside b i j bs h2]

/-- What `memWrite` does when it succeeds (R62). -/
theorem memWrite_ok {s s' : State} {d : Dir} {i : Nat} {bs : List Byte} (h : memWrite s d i bs = .ok s') :
    ∃ b, s.buf.get d = some b ∧ i + bs.length ≤ b.len ∧ s' = s.setBuf d (some (b.store i bs)) := by
  simp only [memWrite] at h
  split at h
  · cases h
  · next b hb =>
    split at h
    · next hl => cases h; exact ⟨b, hb, hl, rfl⟩
    · cases h

end Sys2Proof.Machine
end

