-- ==== Sys2Proof/Laws/Ops.lean ====
section
/-! SUPPORT. The laws of the shared operations: what each leaves unchanged, what each can do when it goes on, and how a turn unfolds,
so that the meanings' proofs cite these and unfold nothing. -/

namespace Sys2Proof.Machine

set_option Elab.async false

/-! ## Fields under the shared operations -/

@[simp] theorem returns_csr (s : State) (k : Nat) (r : Result) (dst : Option (List Byte)) : (s.returns k r dst).csr = s.csr := rfl
@[simp] theorem returns_status (s : State) (k : Nat) (r : Result) (dst : Option (List Byte)) : (s.returns k r dst).status = s.status := rfl
@[simp] theorem returns_slot (s : State) (k : Nat) (r : Result) (dst : Option (List Byte)) : (s.returns k r dst).slot = s.slot := rfl
@[simp] theorem returns_buf (s : State) (k : Nat) (r : Result) (dst : Option (List Byte)) : (s.returns k r dst).buf = s.buf := rfl
@[simp] theorem returns_gate (s : State) (k : Nat) (r : Result) (dst : Option (List Byte)) : (s.returns k r dst).gate = s.gate := rfl
@[simp] theorem returns_waiter (s : State) (k : Nat) (r : Result) (dst : Option (List Byte)) : (s.returns k r dst).waiter = s.waiter := rfl
@[simp] theorem returns_handle (s : State) (k : Nat) (r : Result) (dst : Option (List Byte)) : (s.returns k r dst).handle = s.handle := rfl
@[simp] theorem returns_opened (s : State) (k : Nat) (r : Result) (dst : Option (List Byte)) : (s.returns k r dst).opened = s.opened := rfl
@[simp] theorem returns_pending (s : State) (k : Nat) (r : Result) (dst : Option (List Byte)) : (s.returns k r dst).pending = s.pending := rfl
@[simp] theorem returns_handler (s : State) (k : Nat) (r : Result) (dst : Option (List Byte)) : (s.returns k r dst).handler = s.handler := rfl
@[simp] theorem returns_caller (s : State) (k : Nat) (r : Result) (dst : Option (List Byte)) : (s.returns k r dst).caller = s.caller := rfl
@[simp] theorem returns_allocator (s : State) (k : Nat) (r : Result) (dst : Option (List Byte)) : (s.returns k r dst).allocator = s.allocator := rfl
@[simp] theorem returns_source (s : State) (k : Nat) (r : Result) (dst : Option (List Byte)) : (s.returns k r dst).source = s.source := rfl
@[simp] theorem returns_destinationOk (s : State) (k : Nat) (r : Result) (dst : Option (List Byte)) : (s.returns k r dst).destinationOk = s.destinationOk := rfl
@[simp] theorem returns_draws (s : State) (k : Nat) (r : Result) (dst : Option (List Byte)) : (s.returns k r dst).draws = s.draws := rfl
@[simp] theorem returns_hasTimeout (s : State) (k : Nat) (r : Result) (dst : Option (List Byte)) : (s.returns k r dst).hasTimeout = s.hasTimeout := rfl
@[simp] theorem returns_seenWord (s : State) (k : Nat) (r : Result) (dst : Option (List Byte)) : (s.returns k r dst).seenWord = s.seenWord := rfl
@[simp] theorem returns_seenBytes (s : State) (k : Nat) (r : Result) (dst : Option (List Byte)) : (s.returns k r dst).seenBytes = s.seenBytes := rfl
@[simp] theorem returns_schedule (s : State) (k : Nat) (r : Result) (dst : Option (List Byte)) : (s.returns k r dst).schedule = s.schedule := rfl
@[simp] theorem returns_reg (s : State) (k : Nat) (r : Result) (dst : Option (List Byte)) (r' : SReg) : (s.returns k r dst).reg r' = s.reg r' := rfl
@[simp] theorem returns_devStatus (s : State) (k : Nat) (r : Result) (dst : Option (List Byte)) (r' : DReg) : (s.returns k r dst).devStatus r' = s.devStatus r' := rfl
@[simp] theorem returns_ready (s : State) (k : Nat) (r : Result) (dst : Option (List Byte)) (d' : Dir) : (s.returns k r dst).ready d' = s.ready d' := rfl
@[simp] theorem returns_bufferByte (s : State) (k : Nat) (r : Result) (dst : Option (List Byte)) (d' : Dir) (a : Nat) : (s.returns k r dst).bufferByte d' a = s.bufferByte d' a := rfl

@[simp] theorem pauses_csr (s : State) (k : Nat) (t : Task) : (s.pauses k t).csr = s.csr := rfl
@[simp] theorem pauses_status (s : State) (k : Nat) (t : Task) : (s.pauses k t).status = s.status := rfl
@[simp] theorem pauses_slot (s : State) (k : Nat) (t : Task) : (s.pauses k t).slot = s.slot := rfl
@[simp] theorem pauses_buf (s : State) (k : Nat) (t : Task) : (s.pauses k t).buf = s.buf := rfl
@[simp] theorem pauses_gate (s : State) (k : Nat) (t : Task) : (s.pauses k t).gate = s.gate := rfl
@[simp] theorem pauses_waiter (s : State) (k : Nat) (t : Task) : (s.pauses k t).waiter = s.waiter := rfl
@[simp] theorem pauses_handle (s : State) (k : Nat) (t : Task) : (s.pauses k t).handle = s.handle := rfl
@[simp] theorem pauses_opened (s : State) (k : Nat) (t : Task) : (s.pauses k t).opened = s.opened := rfl
@[simp] theorem pauses_pending (s : State) (k : Nat) (t : Task) : (s.pauses k t).pending = s.pending := rfl
@[simp] theorem pauses_handler (s : State) (k : Nat) (t : Task) : (s.pauses k t).handler = s.handler := rfl
@[simp] theorem pauses_caller (s : State) (k : Nat) (t : Task) : (s.pauses k t).caller = s.caller := rfl
@[simp] theorem pauses_allocator (s : State) (k : Nat) (t : Task) : (s.pauses k t).allocator = s.allocator := rfl
@[simp] theorem pauses_source (s : State) (k : Nat) (t : Task) : (s.pauses k t).source = s.source := rfl
@[simp] theorem pauses_destinationOk (s : State) (k : Nat) (t : Task) : (s.pauses k t).destinationOk = s.destinationOk := rfl
@[simp] theorem pauses_draws (s : State) (k : Nat) (t : Task) : (s.pauses k t).draws = s.draws := rfl
@[simp] theorem pauses_hasTimeout (s : State) (k : Nat) (t : Task) : (s.pauses k t).hasTimeout = s.hasTimeout := rfl
@[simp] theorem pauses_seenWord (s : State) (k : Nat) (t : Task) : (s.pauses k t).seenWord = s.seenWord := rfl
@[simp] theorem pauses_seenBytes (s : State) (k : Nat) (t : Task) : (s.pauses k t).seenBytes = s.seenBytes := rfl
@[simp] theorem pauses_schedule (s : State) (k : Nat) (t : Task) : (s.pauses k t).schedule = s.schedule := rfl
@[simp] theorem pauses_reg (s : State) (k : Nat) (t : Task) (r' : SReg) : (s.pauses k t).reg r' = s.reg r' := rfl
@[simp] theorem pauses_devStatus (s : State) (k : Nat) (t : Task) (r' : DReg) : (s.pauses k t).devStatus r' = s.devStatus r' := rfl
@[simp] theorem pauses_ready (s : State) (k : Nat) (t : Task) (d' : Dir) : (s.pauses k t).ready d' = s.ready d' := rfl
@[simp] theorem pauses_bufferByte (s : State) (k : Nat) (t : Task) (d' : Dir) (a : Nat) : (s.pauses k t).bufferByte d' a = s.bufferByte d' a := rfl

@[simp] theorem updateReady_status (d : Dir) (u : ReadyUpdate) (s : State) : (updateReady d u s).status = s.status := rfl
@[simp] theorem updateReady_slot (d : Dir) (u : ReadyUpdate) (s : State) : (updateReady d u s).slot = s.slot := rfl
@[simp] theorem updateReady_buf (d : Dir) (u : ReadyUpdate) (s : State) : (updateReady d u s).buf = s.buf := rfl
@[simp] theorem updateReady_gate (d : Dir) (u : ReadyUpdate) (s : State) : (updateReady d u s).gate = s.gate := rfl
@[simp] theorem updateReady_waiter (d : Dir) (u : ReadyUpdate) (s : State) : (updateReady d u s).waiter = s.waiter := rfl
@[simp] theorem updateReady_handle (d : Dir) (u : ReadyUpdate) (s : State) : (updateReady d u s).handle = s.handle := rfl
@[simp] theorem updateReady_opened (d : Dir) (u : ReadyUpdate) (s : State) : (updateReady d u s).opened = s.opened := rfl
@[simp] theorem updateReady_pending (d : Dir) (u : ReadyUpdate) (s : State) : (updateReady d u s).pending = s.pending := rfl
@[simp] theorem updateReady_handler (d : Dir) (u : ReadyUpdate) (s : State) : (updateReady d u s).handler = s.handler := rfl
@[simp] theorem updateReady_callers (d : Dir) (u : ReadyUpdate) (s : State) : (updateReady d u s).callers = s.callers := rfl
@[simp] theorem updateReady_caller (d : Dir) (u : ReadyUpdate) (s : State) : (updateReady d u s).caller = s.caller := rfl
@[simp] theorem updateReady_quantum (d : Dir) (u : ReadyUpdate) (s : State) : (updateReady d u s).quantum = s.quantum := rfl
@[simp] theorem updateReady_allocator (d : Dir) (u : ReadyUpdate) (s : State) : (updateReady d u s).allocator = s.allocator := rfl
@[simp] theorem updateReady_source (d : Dir) (u : ReadyUpdate) (s : State) : (updateReady d u s).source = s.source := rfl
@[simp] theorem updateReady_destinationOk (d : Dir) (u : ReadyUpdate) (s : State) : (updateReady d u s).destinationOk = s.destinationOk := rfl
@[simp] theorem updateReady_draws (d : Dir) (u : ReadyUpdate) (s : State) : (updateReady d u s).draws = s.draws := rfl
@[simp] theorem updateReady_hasTimeout (d : Dir) (u : ReadyUpdate) (s : State) : (updateReady d u s).hasTimeout = s.hasTimeout := rfl
@[simp] theorem updateReady_seenWord (d : Dir) (u : ReadyUpdate) (s : State) : (updateReady d u s).seenWord = s.seenWord := rfl
@[simp] theorem updateReady_seenBytes (d : Dir) (u : ReadyUpdate) (s : State) : (updateReady d u s).seenBytes = s.seenBytes := rfl
@[simp] theorem updateReady_schedule (d : Dir) (u : ReadyUpdate) (s : State) : (updateReady d u s).schedule = s.schedule := rfl
@[simp] theorem updateReady_devStatus (d : Dir) (u : ReadyUpdate) (s : State) (r' : DReg) : (updateReady d u s).devStatus r' = s.devStatus r' := rfl
@[simp] theorem updateReady_callerOf (d : Dir) (u : ReadyUpdate) (s : State) (k' : Nat) : (updateReady d u s).callerOf k' = s.callerOf k' := rfl
@[simp] theorem updateReady_bufferByte (d : Dir) (u : ReadyUpdate) (s : State) (d' : Dir) (a : Nat) : (updateReady d u s).bufferByte d' a = s.bufferByte d' a := rfl

@[simp] theorem closeOpen_status (d : Dir) (s : State) : (closeOpen d s).status = s.status := by
  simp only [closeOpen]; split <;> rfl
@[simp] theorem closeOpen_slot (d : Dir) (s : State) : (closeOpen d s).slot = s.slot := by
  simp only [closeOpen]; split <;> rfl
@[simp] theorem closeOpen_buf (d : Dir) (s : State) : (closeOpen d s).buf = s.buf := by
  simp only [closeOpen]; split <;> rfl
@[simp] theorem closeOpen_gate (d : Dir) (s : State) : (closeOpen d s).gate = s.gate := by
  simp only [closeOpen]; split <;> rfl
@[simp] theorem closeOpen_waiter (d : Dir) (s : State) : (closeOpen d s).waiter = s.waiter := by
  simp only [closeOpen]; split <;> rfl
@[simp] theorem closeOpen_handle (d : Dir) (s : State) : (closeOpen d s).handle = s.handle := by
  simp only [closeOpen]; split <;> rfl
@[simp] theorem closeOpen_pending (d : Dir) (s : State) : (closeOpen d s).pending = s.pending := by
  simp only [closeOpen]; split <;> rfl
@[simp] theorem closeOpen_handler (d : Dir) (s : State) : (closeOpen d s).handler = s.handler := by
  simp only [closeOpen]; split <;> rfl
@[simp] theorem closeOpen_callers (d : Dir) (s : State) : (closeOpen d s).callers = s.callers := by
  simp only [closeOpen]; split <;> rfl
@[simp] theorem closeOpen_caller (d : Dir) (s : State) : (closeOpen d s).caller = s.caller := by
  simp only [closeOpen]; split <;> rfl
@[simp] theorem closeOpen_quantum (d : Dir) (s : State) : (closeOpen d s).quantum = s.quantum := by
  simp only [closeOpen]; split <;> rfl
@[simp] theorem closeOpen_allocator (d : Dir) (s : State) : (closeOpen d s).allocator = s.allocator := by
  simp only [closeOpen]; split <;> rfl
@[simp] theorem closeOpen_source (d : Dir) (s : State) : (closeOpen d s).source = s.source := by
  simp only [closeOpen]; split <;> rfl
@[simp] theorem closeOpen_destinationOk (d : Dir) (s : State) : (closeOpen d s).destinationOk = s.destinationOk := by
  simp only [closeOpen]; split <;> rfl
@[simp] theorem closeOpen_draws (d : Dir) (s : State) : (closeOpen d s).draws = s.draws := by
  simp only [closeOpen]; split <;> rfl
@[simp] theorem closeOpen_hasTimeout (d : Dir) (s : State) : (closeOpen d s).hasTimeout = s.hasTimeout := by
  simp only [closeOpen]; split <;> rfl
@[simp] theorem closeOpen_seenWord (d : Dir) (s : State) : (closeOpen d s).seenWord = s.seenWord := by
  simp only [closeOpen]; split <;> rfl
@[simp] theorem closeOpen_seenBytes (d : Dir) (s : State) : (closeOpen d s).seenBytes = s.seenBytes := by
  simp only [closeOpen]; split <;> rfl
@[simp] theorem closeOpen_schedule (d : Dir) (s : State) : (closeOpen d s).schedule = s.schedule := by
  simp only [closeOpen]; split <;> rfl
@[simp] theorem closeOpen_devStatus (d : Dir) (s : State) (r' : DReg) : (closeOpen d s).devStatus r' = s.devStatus r' := by
  simp [State.devStatus]
@[simp] theorem closeOpen_callerOf (d : Dir) (s : State) (k' : Nat) : (closeOpen d s).callerOf k' = s.callerOf k' := by
  simp [State.callerOf]
@[simp] theorem closeOpen_bufferByte (d : Dir) (s : State) (d' : Dir) (a : Nat) : (closeOpen d s).bufferByte d' a = s.bufferByte d' a := by
  simp [State.bufferByte]

@[simp] theorem closeBlock_status (d : Dir) (id : Nat) (s : State) : (closeBlock d id s).status = s.status := by
  simp only [closeBlock]; split <;> simp
@[simp] theorem closeBlock_slot (d : Dir) (id : Nat) (s : State) : (closeBlock d id s).slot = s.slot := by
  simp only [closeBlock]; split <;> simp
@[simp] theorem closeBlock_buf (d : Dir) (id : Nat) (s : State) : (closeBlock d id s).buf = s.buf := by
  simp only [closeBlock]; split <;> simp
@[simp] theorem closeBlock_gate (d : Dir) (id : Nat) (s : State) : (closeBlock d id s).gate = s.gate := by
  simp only [closeBlock]; split <;> simp
@[simp] theorem closeBlock_waiter (d : Dir) (id : Nat) (s : State) : (closeBlock d id s).waiter = s.waiter := by
  simp only [closeBlock]; split <;> simp
@[simp] theorem closeBlock_handle (d : Dir) (id : Nat) (s : State) : (closeBlock d id s).handle = s.handle := by
  simp only [closeBlock]; split <;> simp
@[simp] theorem closeBlock_pending (d : Dir) (id : Nat) (s : State) : (closeBlock d id s).pending = s.pending := by
  simp only [closeBlock]; split <;> simp
@[simp] theorem closeBlock_handler (d : Dir) (id : Nat) (s : State) : (closeBlock d id s).handler = s.handler := by
  simp only [closeBlock]; split <;> simp
@[simp] theorem closeBlock_callers (d : Dir) (id : Nat) (s : State) : (closeBlock d id s).callers = s.callers := by
  simp only [closeBlock]; split <;> simp
@[simp] theorem closeBlock_caller (d : Dir) (id : Nat) (s : State) : (closeBlock d id s).caller = s.caller := by
  simp only [closeBlock]; split <;> simp
@[simp] theorem closeBlock_quantum (d : Dir) (id : Nat) (s : State) : (closeBlock d id s).quantum = s.quantum := by
  simp only [closeBlock]; split <;> simp
@[simp] theorem closeBlock_allocator (d : Dir) (id : Nat) (s : State) : (closeBlock d id s).allocator = s.allocator := by
  simp only [closeBlock]; split <;> simp
@[simp] theorem closeBlock_source (d : Dir) (id : Nat) (s : State) : (closeBlock d id s).source = s.source := by
  simp only [closeBlock]; split <;> simp
@[simp] theorem closeBlock_destinationOk (d : Dir) (id : Nat) (s : State) : (closeBlock d id s).destinationOk = s.destinationOk := by
  simp only [closeBlock]; split <;> simp
@[simp] theorem closeBlock_draws (d : Dir) (id : Nat) (s : State) : (closeBlock d id s).draws = s.draws := by
  simp only [closeBlock]; split <;> simp
@[simp] theorem closeBlock_hasTimeout (d : Dir) (id : Nat) (s : State) : (closeBlock d id s).hasTimeout = s.hasTimeout := by
  simp only [closeBlock]; split <;> simp
@[simp] theorem closeBlock_seenWord (d : Dir) (id : Nat) (s : State) : (closeBlock d id s).seenWord = s.seenWord := by
  simp only [closeBlock]; split <;> simp
@[simp] theorem closeBlock_seenBytes (d : Dir) (id : Nat) (s : State) : (closeBlock d id s).seenBytes = s.seenBytes := by
  simp only [closeBlock]; split <;> simp
@[simp] theorem closeBlock_schedule (d : Dir) (id : Nat) (s : State) : (closeBlock d id s).schedule = s.schedule := by
  simp only [closeBlock]; split <;> simp
@[simp] theorem closeBlock_devStatus (d : Dir) (id : Nat) (s : State) (r' : DReg) : (closeBlock d id s).devStatus r' = s.devStatus r' := by
  simp [State.devStatus]
@[simp] theorem closeBlock_callerOf (d : Dir) (id : Nat) (s : State) (k' : Nat) : (closeBlock d id s).callerOf k' = s.callerOf k' := by
  simp [State.callerOf]
@[simp] theorem closeBlock_bufferByte (d : Dir) (id : Nat) (s : State) (d' : Dir) (a : Nat) : (closeBlock d id s).bufferByte d' a = s.bufferByte d' a := by
  simp [State.bufferByte]

@[simp] theorem acknowledge_csr (l : Line) (s : State) : (acknowledge l s).csr = s.csr := rfl
@[simp] theorem acknowledge_status (l : Line) (s : State) : (acknowledge l s).status = s.status := rfl
@[simp] theorem acknowledge_slot (l : Line) (s : State) : (acknowledge l s).slot = s.slot := rfl
@[simp] theorem acknowledge_buf (l : Line) (s : State) : (acknowledge l s).buf = s.buf := rfl
@[simp] theorem acknowledge_gate (l : Line) (s : State) : (acknowledge l s).gate = s.gate := rfl
@[simp] theorem acknowledge_waiter (l : Line) (s : State) : (acknowledge l s).waiter = s.waiter := rfl
@[simp] theorem acknowledge_handle (l : Line) (s : State) : (acknowledge l s).handle = s.handle := rfl
@[simp] theorem acknowledge_opened (l : Line) (s : State) : (acknowledge l s).opened = s.opened := rfl
@[simp] theorem acknowledge_handler (l : Line) (s : State) : (acknowledge l s).handler = s.handler := rfl
@[simp] theorem acknowledge_callers (l : Line) (s : State) : (acknowledge l s).callers = s.callers := rfl
@[simp] theorem acknowledge_caller (l : Line) (s : State) : (acknowledge l s).caller = s.caller := rfl
@[simp] theorem acknowledge_quantum (l : Line) (s : State) : (acknowledge l s).quantum = s.quantum := rfl
@[simp] theorem acknowledge_allocator (l : Line) (s : State) : (acknowledge l s).allocator = s.allocator := rfl
@[simp] theorem acknowledge_source (l : Line) (s : State) : (acknowledge l s).source = s.source := rfl
@[simp] theorem acknowledge_destinationOk (l : Line) (s : State) : (acknowledge l s).destinationOk = s.destinationOk := rfl
@[simp] theorem acknowledge_draws (l : Line) (s : State) : (acknowledge l s).draws = s.draws := rfl
@[simp] theorem acknowledge_hasTimeout (l : Line) (s : State) : (acknowledge l s).hasTimeout = s.hasTimeout := rfl
@[simp] theorem acknowledge_seenWord (l : Line) (s : State) : (acknowledge l s).seenWord = s.seenWord := rfl
@[simp] theorem acknowledge_seenBytes (l : Line) (s : State) : (acknowledge l s).seenBytes = s.seenBytes := rfl
@[simp] theorem acknowledge_schedule (l : Line) (s : State) : (acknowledge l s).schedule = s.schedule := rfl
@[simp] theorem acknowledge_reg (l : Line) (s : State) (r' : SReg) : (acknowledge l s).reg r' = s.reg r' := rfl
@[simp] theorem acknowledge_devStatus (l : Line) (s : State) (r' : DReg) : (acknowledge l s).devStatus r' = s.devStatus r' := rfl
@[simp] theorem acknowledge_callerOf (l : Line) (s : State) (k' : Nat) : (acknowledge l s).callerOf k' = s.callerOf k' := rfl
@[simp] theorem acknowledge_ready (l : Line) (s : State) (d' : Dir) : (acknowledge l s).ready d' = s.ready d' := rfl
@[simp] theorem acknowledge_bufferByte (l : Line) (s : State) (d' : Dir) (a : Nat) : (acknowledge l s).bufferByte d' a = s.bufferByte d' a := rfl

@[simp] theorem install_csr (d : Dir) (b : Buffer) (s : State) : (install d b s).csr = s.csr := rfl
@[simp] theorem install_status (d : Dir) (b : Buffer) (s : State) : (install d b s).status = s.status := rfl
@[simp] theorem install_waiter (d : Dir) (b : Buffer) (s : State) : (install d b s).waiter = s.waiter := rfl
@[simp] theorem install_opened (d : Dir) (b : Buffer) (s : State) : (install d b s).opened = s.opened := rfl
@[simp] theorem install_pending (d : Dir) (b : Buffer) (s : State) : (install d b s).pending = s.pending := rfl
@[simp] theorem install_handler (d : Dir) (b : Buffer) (s : State) : (install d b s).handler = s.handler := rfl
@[simp] theorem install_callers (d : Dir) (b : Buffer) (s : State) : (install d b s).callers = s.callers := rfl
@[simp] theorem install_caller (d : Dir) (b : Buffer) (s : State) : (install d b s).caller = s.caller := rfl
@[simp] theorem install_quantum (d : Dir) (b : Buffer) (s : State) : (install d b s).quantum = s.quantum := rfl
@[simp] theorem install_allocator (d : Dir) (b : Buffer) (s : State) : (install d b s).allocator = s.allocator := rfl
@[simp] theorem install_source (d : Dir) (b : Buffer) (s : State) : (install d b s).source = s.source := rfl
@[simp] theorem install_destinationOk (d : Dir) (b : Buffer) (s : State) : (install d b s).destinationOk = s.destinationOk := rfl
@[simp] theorem install_hasTimeout (d : Dir) (b : Buffer) (s : State) : (install d b s).hasTimeout = s.hasTimeout := rfl
@[simp] theorem install_seenWord (d : Dir) (b : Buffer) (s : State) : (install d b s).seenWord = s.seenWord := rfl
@[simp] theorem install_seenBytes (d : Dir) (b : Buffer) (s : State) : (install d b s).seenBytes = s.seenBytes := rfl
@[simp] theorem install_schedule (d : Dir) (b : Buffer) (s : State) : (install d b s).schedule = s.schedule := rfl
@[simp] theorem install_reg (d : Dir) (b : Buffer) (s : State) (r' : SReg) : (install d b s).reg r' = s.reg r' := rfl
@[simp] theorem install_devStatus (d : Dir) (b : Buffer) (s : State) (r' : DReg) : (install d b s).devStatus r' = s.devStatus r' := rfl
@[simp] theorem install_callerOf (d : Dir) (b : Buffer) (s : State) (k' : Nat) : (install d b s).callerOf k' = s.callerOf k' := rfl
@[simp] theorem install_ready (d : Dir) (b : Buffer) (s : State) (d' : Dir) : (install d b s).ready d' = s.ready d' := rfl

@[simp] theorem freeBuffer_csr (d : Dir) (s : State) : (freeBuffer d s).csr = s.csr := rfl
@[simp] theorem freeBuffer_status (d : Dir) (s : State) : (freeBuffer d s).status = s.status := rfl
@[simp] theorem freeBuffer_gate (d : Dir) (s : State) : (freeBuffer d s).gate = s.gate := rfl
@[simp] theorem freeBuffer_waiter (d : Dir) (s : State) : (freeBuffer d s).waiter = s.waiter := rfl
@[simp] theorem freeBuffer_pending (d : Dir) (s : State) : (freeBuffer d s).pending = s.pending := rfl
@[simp] theorem freeBuffer_handler (d : Dir) (s : State) : (freeBuffer d s).handler = s.handler := rfl
@[simp] theorem freeBuffer_callers (d : Dir) (s : State) : (freeBuffer d s).callers = s.callers := rfl
@[simp] theorem freeBuffer_caller (d : Dir) (s : State) : (freeBuffer d s).caller = s.caller := rfl
@[simp] theorem freeBuffer_quantum (d : Dir) (s : State) : (freeBuffer d s).quantum = s.quantum := rfl
@[simp] theorem freeBuffer_allocator (d : Dir) (s : State) : (freeBuffer d s).allocator = s.allocator := rfl
@[simp] theorem freeBuffer_source (d : Dir) (s : State) : (freeBuffer d s).source = s.source := rfl
@[simp] theorem freeBuffer_destinationOk (d : Dir) (s : State) : (freeBuffer d s).destinationOk = s.destinationOk := rfl
@[simp] theorem freeBuffer_draws (d : Dir) (s : State) : (freeBuffer d s).draws = s.draws := rfl
@[simp] theorem freeBuffer_hasTimeout (d : Dir) (s : State) : (freeBuffer d s).hasTimeout = s.hasTimeout := rfl
@[simp] theorem freeBuffer_seenWord (d : Dir) (s : State) : (freeBuffer d s).seenWord = s.seenWord := rfl
@[simp] theorem freeBuffer_seenBytes (d : Dir) (s : State) : (freeBuffer d s).seenBytes = s.seenBytes := rfl
@[simp] theorem freeBuffer_schedule (d : Dir) (s : State) : (freeBuffer d s).schedule = s.schedule := rfl
@[simp] theorem freeBuffer_reg (d : Dir) (s : State) (r' : SReg) : (freeBuffer d s).reg r' = s.reg r' := rfl
@[simp] theorem freeBuffer_devStatus (d : Dir) (s : State) (r' : DReg) : (freeBuffer d s).devStatus r' = s.devStatus r' := rfl
@[simp] theorem freeBuffer_callerOf (d : Dir) (s : State) (k' : Nat) : (freeBuffer d s).callerOf k' = s.callerOf k' := rfl
@[simp] theorem freeBuffer_ready (d : Dir) (s : State) (d' : Dir) : (freeBuffer d s).ready d' = s.ready d' := rfl

@[simp] theorem consumeSignal_csr (d : Dir) (k : Option Nat) (s : State) : (consumeSignal d k s).csr = s.csr := rfl
@[simp] theorem consumeSignal_status (d : Dir) (k : Option Nat) (s : State) : (consumeSignal d k s).status = s.status := rfl
@[simp] theorem consumeSignal_slot (d : Dir) (k : Option Nat) (s : State) : (consumeSignal d k s).slot = s.slot := rfl
@[simp] theorem consumeSignal_buf (d : Dir) (k : Option Nat) (s : State) : (consumeSignal d k s).buf = s.buf := rfl
@[simp] theorem consumeSignal_opened (d : Dir) (k : Option Nat) (s : State) : (consumeSignal d k s).opened = s.opened := rfl
@[simp] theorem consumeSignal_pending (d : Dir) (k : Option Nat) (s : State) : (consumeSignal d k s).pending = s.pending := rfl
@[simp] theorem consumeSignal_handler (d : Dir) (k : Option Nat) (s : State) : (consumeSignal d k s).handler = s.handler := rfl
@[simp] theorem consumeSignal_callers (d : Dir) (k : Option Nat) (s : State) : (consumeSignal d k s).callers = s.callers := rfl
@[simp] theorem consumeSignal_caller (d : Dir) (k : Option Nat) (s : State) : (consumeSignal d k s).caller = s.caller := rfl
@[simp] theorem consumeSignal_quantum (d : Dir) (k : Option Nat) (s : State) : (consumeSignal d k s).quantum = s.quantum := rfl
@[simp] theorem consumeSignal_allocator (d : Dir) (k : Option Nat) (s : State) : (consumeSignal d k s).allocator = s.allocator := rfl
@[simp] theorem consumeSignal_source (d : Dir) (k : Option Nat) (s : State) : (consumeSignal d k s).source = s.source := rfl
@[simp] theorem consumeSignal_destinationOk (d : Dir) (k : Option Nat) (s : State) : (consumeSignal d k s).destinationOk = s.destinationOk := rfl
@[simp] theorem consumeSignal_draws (d : Dir) (k : Option Nat) (s : State) : (consumeSignal d k s).draws = s.draws := rfl
@[simp] theorem consumeSignal_hasTimeout (d : Dir) (k : Option Nat) (s : State) : (consumeSignal d k s).hasTimeout = s.hasTimeout := rfl
@[simp] theorem consumeSignal_seenWord (d : Dir) (k : Option Nat) (s : State) : (consumeSignal d k s).seenWord = s.seenWord := rfl
@[simp] theorem consumeSignal_seenBytes (d : Dir) (k : Option Nat) (s : State) : (consumeSignal d k s).seenBytes = s.seenBytes := rfl
@[simp] theorem consumeSignal_schedule (d : Dir) (k : Option Nat) (s : State) : (consumeSignal d k s).schedule = s.schedule := rfl
@[simp] theorem consumeSignal_reg (d : Dir) (k : Option Nat) (s : State) (r' : SReg) : (consumeSignal d k s).reg r' = s.reg r' := rfl
@[simp] theorem consumeSignal_devStatus (d : Dir) (k : Option Nat) (s : State) (r' : DReg) : (consumeSignal d k s).devStatus r' = s.devStatus r' := rfl
@[simp] theorem consumeSignal_callerOf (d : Dir) (k : Option Nat) (s : State) (k' : Nat) : (consumeSignal d k s).callerOf k' = s.callerOf k' := rfl
@[simp] theorem consumeSignal_ready (d : Dir) (k : Option Nat) (s : State) (d' : Dir) : (consumeSignal d k s).ready d' = s.ready d' := rfl
@[simp] theorem consumeSignal_bufferByte (d : Dir) (k : Option Nat) (s : State) (d' : Dir) (a : Nat) : (consumeSignal d k s).bufferByte d' a = s.bufferByte d' a := rfl

@[simp] theorem abandonWait_csr (d : Dir) (s : State) : (abandonWait d s).csr = s.csr := by
  simp only [abandonWait]; split; · rfl
  · split <;> rfl
@[simp] theorem abandonWait_status (d : Dir) (s : State) : (abandonWait d s).status = s.status := by
  simp only [abandonWait]; split; · rfl
  · split <;> rfl
@[simp] theorem abandonWait_slot (d : Dir) (s : State) : (abandonWait d s).slot = s.slot := by
  simp only [abandonWait]; split; · rfl
  · split <;> rfl
@[simp] theorem abandonWait_buf (d : Dir) (s : State) : (abandonWait d s).buf = s.buf := by
  simp only [abandonWait]; split; · rfl
  · split <;> rfl
@[simp] theorem abandonWait_gate (d : Dir) (s : State) : (abandonWait d s).gate = s.gate := by
  simp only [abandonWait]; split; · rfl
  · split <;> rfl
@[simp] theorem abandonWait_waiter (d : Dir) (s : State) : (abandonWait d s).waiter = s.waiter := by
  simp only [abandonWait]; split; · rfl
  · split <;> rfl
@[simp] theorem abandonWait_handle (d : Dir) (s : State) : (abandonWait d s).handle = s.handle := by
  simp only [abandonWait]; split; · rfl
  · split <;> rfl
@[simp] theorem abandonWait_opened (d : Dir) (s : State) : (abandonWait d s).opened = s.opened := by
  simp only [abandonWait]; split; · rfl
  · split <;> rfl
@[simp] theorem abandonWait_pending (d : Dir) (s : State) : (abandonWait d s).pending = s.pending := by
  simp only [abandonWait]; split; · rfl
  · split <;> rfl
@[simp] theorem abandonWait_handler (d : Dir) (s : State) : (abandonWait d s).handler = s.handler := by
  simp only [abandonWait]; split; · rfl
  · split <;> rfl
@[simp] theorem abandonWait_caller (d : Dir) (s : State) : (abandonWait d s).caller = s.caller := by
  simp only [abandonWait]; split; · rfl
  · split <;> rfl
@[simp] theorem abandonWait_quantum (d : Dir) (s : State) : (abandonWait d s).quantum = s.quantum := by
  simp only [abandonWait]; split; · rfl
  · split <;> rfl
@[simp] theorem abandonWait_allocator (d : Dir) (s : State) : (abandonWait d s).allocator = s.allocator := by
  simp only [abandonWait]; split; · rfl
  · split <;> rfl
@[simp] theorem abandonWait_source (d : Dir) (s : State) : (abandonWait d s).source = s.source := by
  simp only [abandonWait]; split; · rfl
  · split <;> rfl
@[simp] theorem abandonWait_destinationOk (d : Dir) (s : State) : (abandonWait d s).destinationOk = s.destinationOk := by
  simp only [abandonWait]; split; · rfl
  · split <;> rfl
@[simp] theorem abandonWait_draws (d : Dir) (s : State) : (abandonWait d s).draws = s.draws := by
  simp only [abandonWait]; split; · rfl
  · split <;> rfl
@[simp] theorem abandonWait_hasTimeout (d : Dir) (s : State) : (abandonWait d s).hasTimeout = s.hasTimeout := by
  simp only [abandonWait]; split; · rfl
  · split <;> rfl
@[simp] theorem abandonWait_seenWord (d : Dir) (s : State) : (abandonWait d s).seenWord = s.seenWord := by
  simp only [abandonWait]; split; · rfl
  · split <;> rfl
@[simp] theorem abandonWait_seenBytes (d : Dir) (s : State) : (abandonWait d s).seenBytes = s.seenBytes := by
  simp only [abandonWait]; split; · rfl
  · split <;> rfl
@[simp] theorem abandonWait_schedule (d : Dir) (s : State) : (abandonWait d s).schedule = s.schedule := by
  simp only [abandonWait]; split; · rfl
  · split <;> rfl
@[simp] theorem abandonWait_reg (d : Dir) (s : State) (r' : SReg) : (abandonWait d s).reg r' = s.reg r' := by
  simp [State.reg]
@[simp] theorem abandonWait_devStatus (d : Dir) (s : State) (r' : DReg) : (abandonWait d s).devStatus r' = s.devStatus r' := by
  simp [State.devStatus]
@[simp] theorem abandonWait_ready (d : Dir) (s : State) (d' : Dir) : (abandonWait d s).ready d' = s.ready d' := by
  simp [State.ready]
@[simp] theorem abandonWait_bufferByte (d : Dir) (s : State) (d' : Dir) (a : Nat) : (abandonWait d s).bufferByte d' a = s.bufferByte d' a := by
  simp [State.bufferByte]

@[simp] theorem resetDirection_csr (d : Dir) (s : State) : (resetDirection d s).csr = s.csr := by
  simp only [resetDirection]; split <;> simp
@[simp] theorem resetDirection_status (d : Dir) (s : State) : (resetDirection d s).status = s.status := by
  simp only [resetDirection]; split <;> simp
@[simp] theorem resetDirection_pending (d : Dir) (s : State) : (resetDirection d s).pending = s.pending := by
  simp only [resetDirection]; split <;> simp
@[simp] theorem resetDirection_handler (d : Dir) (s : State) : (resetDirection d s).handler = s.handler := by
  simp only [resetDirection]; split <;> simp
@[simp] theorem resetDirection_caller (d : Dir) (s : State) : (resetDirection d s).caller = s.caller := by
  simp only [resetDirection]; split <;> simp
@[simp] theorem resetDirection_quantum (d : Dir) (s : State) : (resetDirection d s).quantum = s.quantum := by
  simp only [resetDirection]; split <;> simp
@[simp] theorem resetDirection_allocator (d : Dir) (s : State) : (resetDirection d s).allocator = s.allocator := by
  simp only [resetDirection]; split <;> simp
@[simp] theorem resetDirection_source (d : Dir) (s : State) : (resetDirection d s).source = s.source := by
  simp only [resetDirection]; split <;> simp
@[simp] theorem resetDirection_destinationOk (d : Dir) (s : State) : (resetDirection d s).destinationOk = s.destinationOk := by
  simp only [resetDirection]; split <;> simp
@[simp] theorem resetDirection_draws (d : Dir) (s : State) : (resetDirection d s).draws = s.draws := by
  simp only [resetDirection]; split <;> simp
@[simp] theorem resetDirection_hasTimeout (d : Dir) (s : State) : (resetDirection d s).hasTimeout = s.hasTimeout := by
  simp only [resetDirection]; split <;> simp
@[simp] theorem resetDirection_seenWord (d : Dir) (s : State) : (resetDirection d s).seenWord = s.seenWord := by
  simp only [resetDirection]; split <;> simp
@[simp] theorem resetDirection_seenBytes (d : Dir) (s : State) : (resetDirection d s).seenBytes = s.seenBytes := by
  simp only [resetDirection]; split <;> simp
@[simp] theorem resetDirection_schedule (d : Dir) (s : State) : (resetDirection d s).schedule = s.schedule := by
  simp only [resetDirection]; split <;> simp
@[simp] theorem resetDirection_reg (d : Dir) (s : State) (r' : SReg) : (resetDirection d s).reg r' = s.reg r' := by
  simp [State.reg]
@[simp] theorem resetDirection_devStatus (d : Dir) (s : State) (r' : DReg) : (resetDirection d s).devStatus r' = s.devStatus r' := by
  simp [State.devStatus]
@[simp] theorem resetDirection_ready (d : Dir) (s : State) (d' : Dir) : (resetDirection d s).ready d' = s.ready d' := by
  simp [State.ready]

@[simp] theorem returns_quantum (s : State) (k : Nat) (r : Result) (dst : Option (List Byte)) :
    (s.returns k r dst).quantum = none := rfl
@[simp] theorem pauses_quantum (s : State) (k : Nat) (t : Task) : (s.pauses k t).quantum = none := rfl

@[simp] theorem returns_callerOf_same (s : State) (k : Nat) (r : Result) (dst : Option (List Byte)) :
    (s.returns k r dst).callerOf k = { task := none, result := some r, dst := dst.getD (s.callerOf k).dst } := by
  simp [State.returns]

theorem returns_callerOf_other (s : State) (k k' : Nat) (r : Result) (dst : Option (List Byte)) (h : k' ≠ k) :
    (s.returns k r dst).callerOf k' = s.callerOf k' := by
  simp [State.returns, State.setCaller_callerOf_other _ _ _ _ h]

@[simp] theorem pauses_callerOf_same (s : State) (k : Nat) (t : Task) :
    (s.pauses k t).callerOf k = { task := some t, result := none, dst := (s.callerOf k).dst } := by
  simp [State.pauses]

theorem pauses_callerOf_other (s : State) (k k' : Nat) (t : Task) (h : k' ≠ k) :
    (s.pauses k t).callerOf k' = s.callerOf k' := by
  simp [State.pauses, State.setCaller_callerOf_other _ _ _ _ h]

@[simp] theorem returns_idle_same (s : State) (k : Nat) (r : Result) (dst : Option (List Byte)) :
    (s.returns k r dst).idle k = true := by
  simp [State.idle]

@[simp] theorem install_buf (d : Dir) (b : Buffer) (s : State) : (install d b s).buf = s.buf.set d (some b) := rfl
@[simp] theorem install_slot (d : Dir) (b : Buffer) (s : State) : (install d b s).slot = s.slot.set d .published := rfl
@[simp] theorem install_gate (d : Dir) (b : Buffer) (s : State) : (install d b s).gate = s.gate.set d .pending := rfl
@[simp] theorem install_handle (d : Dir) (b : Buffer) (s : State) : (install d b s).handle = s.handle.set d none := rfl
@[simp] theorem install_draws (d : Dir) (b : Buffer) (s : State) : (install d b s).draws = s.draws + 1 := rfl
@[simp] theorem freeBuffer_buf (d : Dir) (s : State) : (freeBuffer d s).buf = s.buf.set d none := rfl
@[simp] theorem freeBuffer_slot (d : Dir) (s : State) : (freeBuffer d s).slot = s.slot.set d .unallocated := rfl
@[simp] theorem freeBuffer_handle (d : Dir) (s : State) : (freeBuffer d s).handle = s.handle.set d none := rfl
@[simp] theorem freeBuffer_opened (d : Dir) (s : State) :
    (freeBuffer d s).opened = s.opened.set d ((s.opened.get d).filter fun o => !o.forTransfer) := rfl
@[simp] theorem consumeSignal_gate (d : Dir) (k : Option Nat) (s : State) : (consumeSignal d k s).gate = s.gate.set d .pending := rfl
@[simp] theorem consumeSignal_waiter (d : Dir) (k : Option Nat) (s : State) : (consumeSignal d k s).waiter = s.waiter.set d none := rfl
@[simp] theorem consumeSignal_handle (d : Dir) (k : Option Nat) (s : State) :
    (consumeSignal d k s).handle = s.handle.set d (noteWaited d k s) := rfl
@[simp] theorem acknowledge_pending (l : Line) (s : State) : (acknowledge l s).pending = s.pending.set l false := rfl

@[simp] theorem resetDirection_gate (d : Dir) (s : State) : (resetDirection d s).gate = s.gate.set d .pending := by
  simp only [resetDirection]; split <;> simp
@[simp] theorem resetDirection_waiter (d : Dir) (s : State) : (resetDirection d s).waiter = s.waiter.set d none := by
  simp only [resetDirection]; split <;> simp

/-- After the session reset's lines for `d` the slot is Unallocated (R282). -/
@[simp] theorem resetDirection_slot (d : Dir) (s : State) : (resetDirection d s).slot = s.slot.set d .unallocated := by
  simp only [resetDirection]
  split
  · next h => simp [← h]
  · simp

/-- The buffer after the session reset's lines for `d`: none, unless the slot was already Unallocated. -/
theorem resetDirection_buf (d : Dir) (s : State) :
    (resetDirection d s).buf = if s.slot.get d = .unallocated then s.buf else s.buf.set d none := by
  simp only [resetDirection]
  split <;> simp

theorem resetDirection_handle (d : Dir) (s : State) :
    (resetDirection d s).handle = if s.slot.get d = .unallocated then s.handle else s.handle.set d none := by
  simp only [resetDirection]
  split <;> simp

theorem resetDirection_opened (d : Dir) (s : State) :
    (resetDirection d s).opened = if s.slot.get d = .unallocated then s.opened else
      s.opened.set d ((s.opened.get d).filter fun o => !o.forTransfer) := by
  simp only [resetDirection]
  split <;> simp

/-- The record of a caller after a blocked caller has left its WAIT.d (R282; log 20). -/
theorem abandonWait_callerOf (d : Dir) (s : State) (k : Nat) :
    (abandonWait d s).callerOf k = if s.waiter.get d = some k ∧ blockedIn k d s = true then
      { task := none, result := none, dst := (s.callerOf k).dst } else s.callerOf k := by
  simp only [abandonWait]
  split
  · next h => simp [h]
  · next j h =>
    split
    · next hb =>
      by_cases hk : k = j
      · subst hk; simp [h, hb]
      · simp [State.setCaller_callerOf_other _ _ _ _ hk, h, Ne.symm hk]
    · next hb =>
      by_cases hk : k = j
      · subst hk; simp [hb]
      · simp [h, Ne.symm hk]

/-- The record of a caller after the session reset's lines for `d` (R282; log 20). -/
theorem resetDirection_callerOf (d : Dir) (s : State) (k : Nat) :
    (resetDirection d s).callerOf k = if s.waiter.get d = some k ∧ blockedIn k d s = true then
      { task := none, result := none, dst := (s.callerOf k).dst } else s.callerOf k := by
  have hb : blockedIn k d ((if s.slot.get d = .unallocated then s else freeBuffer d s).setGate d .pending) = blockedIn k d s := by
    simp only [blockedIn, State.setGate_callerOf]; split <;> rfl
  simp only [resetDirection, State.setWaiter_callerOf, abandonWait_callerOf, hb, State.setGate_waiter, State.setGate_callerOf]
  split <;> rfl

@[simp] theorem updateReady_reg_same (d : Dir) (u : ReadyUpdate) (s : State) :
    (updateReady d u s).reg (readyReg d) = applyReadyUpdate u (s.reg (readyReg d)) := by
  simp [updateReady]

theorem updateReady_reg_other (d : Dir) (u : ReadyUpdate) (s : State) (r : SReg) (h : r ≠ readyReg d) :
    (updateReady d u s).reg r = s.reg r := by
  simp [updateReady, State.setReg_reg_other _ _ _ _ h]

/-! ### Open blocks (R262, R263) -/

/-- With no block of `d` open there is nothing to close. -/
theorem closeOpen_none {d : Dir} {s : State} (h : s.opened.get d = none) : closeOpen d s = s := by simp [closeOpen, h]

theorem closeOpen_some {d : Dir} {s : State} {o : OpenBlock} (h : s.opened.get d = some o) :
    closeOpen d s = (s.setReg (readyReg d) o.word).setOpened d none := by simp [closeOpen, h]

/-- Closing writes READY_d and no other register. -/
theorem closeOpen_reg_other (d : Dir) (s : State) (r : SReg) (h : r ≠ readyReg d) : (closeOpen d s).reg r = s.reg r := by
  simp only [closeOpen]; split
  · rfl
  · simp [State.setReg_reg_other _ _ _ _ h]

theorem closeOpen_reg_same (d : Dir) (s : State) :
    (closeOpen d s).reg (readyReg d) = ((s.opened.get d).map OpenBlock.word).getD (s.reg (readyReg d)) := by
  simp only [closeOpen]; split <;> simp_all

/-- After a closing no block of `d` is open; those of the other direction are untouched. -/
@[simp] theorem closeOpen_opened (d : Dir) (s : State) : (closeOpen d s).opened = s.opened.set d none := by
  simp only [closeOpen]; split
  · next h => simp [← h]
  · simp

/-- The write of a block is the closing of the open block of that number, or no step. -/
theorem closeBlock_cases (d : Dir) (id : Nat) (s : State) :
    ((∃ o, s.opened.get d = some o ∧ o.id = id) ∧ closeBlock d id s = closeOpen d s) ∨
    ((∀ o, s.opened.get d = some o → o.id ≠ id) ∧ closeBlock d id s = s) := by
  cases h : s.opened.get d with
  | none => right; exact ⟨by simp, by simp [closeBlock, h]⟩
  | some o =>
    by_cases hid : o.id = id
    · left; exact ⟨⟨o, rfl, hid⟩, by simp [closeBlock, h, hid]⟩
    · right; exact ⟨by simp [hid], by simp [closeBlock, h, hid]⟩

theorem closeBlock_reg_other (d : Dir) (id : Nat) (s : State) (r : SReg) (h : r ≠ readyReg d) :
    (closeBlock d id s).reg r = s.reg r := by
  rcases closeBlock_cases d id s with ⟨_, e⟩ | ⟨_, e⟩ <;> simp [e, closeOpen_reg_other _ _ _ h]

/-- The other direction's open block is untouched by the write of a block. -/
theorem closeBlock_opened_other (d d' : Dir) (id : Nat) (s : State) (h : d' ≠ d) :
    (closeBlock d id s).opened.get d' = s.opened.get d' := by
  rcases closeBlock_cases d id s with ⟨_, e⟩ | ⟨_, e⟩ <;> simp [e, PerDir.get_set_other _ _ _ _ h]

/-! ## What one step can do -/

/-- `RegWrite` succeeds on class S, and on an acknowledge register with its line's ACK_VALUE (R111). -/
theorem regWrite_ok {r : Reg} {v : Word} {s s' : State} (h : regWrite r v s = .ok s') :
    (∃ x, r = .s x ∧ s' = s.setReg x v) ∨ (∃ l, r = .a (ackReg l) ∧ v = Config.ackValue l ∧ s' = acknowledge l s) := by
  rcases r with x | x | x
  · simp only [regWrite, Except.ok.injEq] at h; exact .inl ⟨x, rfl, h.symm⟩
  · simp [regWrite] at h
  · right
    cases x <;> simp only [regWrite, ackLine] at h
    · cases h
    · cases h
    all_goals
      split at h
      · next hv => cases h; exact ⟨_, rfl, hv, rfl⟩
      · cases h

/-- The acknowledge step is `RegWrite` of ACK_VALUE to the line's acknowledge register (R115, R250 to R252). -/
theorem regWrite_ackReg (l : Line) (s : State) : regWrite (.a (ackReg l)) (Config.ackValue l) s = .ok (acknowledge l s) := by
  cases l <;> simp [regWrite, ackReg, ackLine]

/-- BEGIN_TRANSFER's indivisible part raises an error only with the state unchanged (R170, R242, R243). -/
theorem claim_raise {d : Dir} {len : Word} {t : Task} {s s' : State} {e : Err} (h : claim d len t s = .raise e s') :
    s' = s ∧ ((e = .transferAlreadyInFlight ∧ s.slot.get d ≠ .unallocated) ∨
      (e = .allocationFailed ∧ s.slot.get d = .unallocated ∧ (len = 0 ∨ s.allocator = none))) := by
  simp only [claim] at h
  split at h
  · next h1 => cases h; exact ⟨rfl, .inl ⟨rfl, h1⟩⟩
  · next h1 =>
    have h1' : s.slot.get d = .unallocated := by simpa using h1
    split at h
    · next h2 => cases h; exact ⟨rfl, .inr ⟨rfl, h1', .inl h2⟩⟩
    · split at h
      · next ha => cases h; exact ⟨rfl, .inr ⟨rfl, h1', .inr ha⟩⟩
      · cases h

/-- With no block of `d` open, an `atomic_d` block is its own two transactions. -/
theorem readyBlock_free {d : Dir} {u : ReadyUpdate} {t : Task} {s : State} (h : s.opened.get d = none) :
    readyBlock d u t s = .go t (updateReady d u s) := by simp [readyBlock, closeOpen_none h]

theorem mayComplete_iff (d : Dir) (k : Nat) (s : State) :
    mayComplete d k s = true ↔ s.slot.get d = .awaitingCompletion ∧ s.handle.get d = some { owner := sessionOf k, awaited := true } := by
  simp [mayComplete]

theorem ownsHandle_iff (d : Dir) (k : Nat) (s : State) :
    ownsHandle d k s = true ↔ ∃ h, s.handle.get d = some h ∧ h.owner = sessionOf k := by
  cases h : s.handle.get d <;> simp [ownsHandle, h]

/-- A part of a host store: inside the live write buffer, the bytes or free values (R62, R77). -/
theorem storePart_ok {i : Nat} {bs : List Byte} {s s' : State} (h : storePart i bs s = .ok s') :
    ∃ b, s.buf.get .write = some b ∧ i + bs.length ≤ b.len ∧
      s' = (s.setBuf .write (some (b.store i (if s.ready .write then raceBytes s.draws i bs.length else bs)))).drawn := by
  simp only [storePart] at h
  split at h
  · next u hu =>
    cases h
    obtain ⟨b, hb, hl, rfl⟩ := memWrite_ok hu
    refine ⟨b, hb, ?_, rfl⟩
    split at hl <;> simpa [raceBytes] using hl
  · cases h

/-- A part of a host load: inside the live read buffer, its bytes or free values (R62, R77). -/
theorem loadPart_ok {loaded data : List Byte} {n : Nat} {s : State} (h : loadPart loaded n s = .ok data) :
    ∃ b, s.buf.get .read = some b ∧ loaded.length + n ≤ b.len ∧
      data = loaded ++ if s.ready .read then raceBytes s.draws loaded.length n else b.bytes loaded.length n := by
  simp only [loadPart, memRead] at h
  split at h
  · next bs hb =>
    split at hb
    · cases hb
    · next b hbuf =>
      split at hb
      · next hl => cases hb; cases h; exact ⟨b, hbuf, hl, rfl⟩
      · cases hb
  · cases h

/-- Everything one step of an agent can do when its operation goes on: one case per outcome, with its guard, the remaining task and the
next state. `t` is the task with the step taken off. -/
inductive Went (t : Task) (s : State) : Micro → Task → State → Prop
  | read (r : Reg) : Went t s (.read r) { t with vals := t.vals ++ [(regRead r s).1] } (regRead r s).2
  | write (r : SReg) (v : Word) : Went t s (.write (.s r) v) t (s.setReg r v)
  | ackWrite (l : Line) : Went t s (.write (.a (ackReg l)) (Config.ackValue l)) t (acknowledge l s)
  | enter : Went t s .enter t s
  | rmw (d : Dir) (u : ReadyUpdate) : Went t s (.rmw d u) t (updateReady d u (closeOpen d s))
  | putReady (d : Dir) (id : Nat) : Went t s (.putReady d id) t (closeBlock d id s)
  | claim (d : Dir) (len dev : Word) (host : Nat) (slot : s.slot.get d = .unallocated) (pos : len ≠ 0)
      (alloc : s.allocator = some (dev, host)) :
      Went t s (.claim d len)
        { t with todo := .write (.s (addrReg d)) dev :: .write (.s (sizeReg d)) len :: t.todo, holds := some (d, s.draws) }
        (install d (freshBuffer len dev host s) s)
  | giveHandle (d : Dir) (k : Nat) (slot : s.slot.get d ≠ .unallocated) :
      Went t s (.giveHandle d k) t (s.setHandle d (some { owner := sessionOf k, awaited := false }))
  | checkPublished (d : Dir) (k : Nat) (slot : s.slot.get d = .published) (owns : ownsHandle d k s = true) :
      Went t s (.checkPublished d k) { t with holds := transferOf d s } s
  | awaitCompletion (d : Dir) (slot : s.slot.get d = .published) :
      Went t s (.awaitCompletion d) t (s.setSlot d .awaitingCompletion)
  | waitEnter (d : Dir) (k : Nat) (waiter : s.waiter.get d = none) : Went t s (.waitEnter d k) t (s.setWaiter d (some k))
  | waitBlock (d : Dir) (gate : s.gate.get d = .signaled) : Went t s (.waitBlock d) t (consumeSignal d (waiterFor d t s) s)
  | copyFails (n : Word) (source : s.source = none) :
      Went t s (.copyIn n) { t with todo := [.release .write], fin := .const (.error .copyFault) } s
  | copyIn (n : Word) (bs : List Byte) (source : s.source = some bs) :
      Went t s (.copyIn n) { t with todo := .storeBytes 0 (sourceBytes bs n.toNat s.draws) :: t.todo } s.drawn
  | storeBytes (i : Nat) (bs : List Byte) (b : Buffer) (buf : s.buf.get .write = some b) (inside : i + bs.length ≤ b.len) :
      Went t s (.storeBytes i bs) t
        (s.setBuf .write (some (b.store i (if s.ready .write then raceBytes s.draws i bs.length else bs)))).drawn
  | completeWrite (k : Nat) (may : mayComplete .write k s = true) :
      Went t s (.complete .write k) { t with todo := .release .write :: t.todo, holds := transferOf .write s } s
  | completeRead (k : Nat) (may : mayComplete .read k s = true) :
      Went t s (.complete .read k) { t with todo := .loadBytes [] :: .release .read :: t.todo, holds := transferOf .read s } s
  | loadBytes (loaded : List Byte) (b : Buffer) (buf : s.buf.get .read = some b) (inside : loaded.length ≤ b.len) :
      Went t s (.loadBytes loaded)
        { t with todo := .deliver (loaded ++ if s.ready .read then raceBytes s.draws loaded.length (b.len - loaded.length) else
          b.bytes loaded.length (b.len - loaded.length)) :: t.todo } s.drawn
  | deliver (data : List Byte) (ok : s.destinationOk = true) :
      Went t s (.deliver data) { t with fin := .const (.bytes data), dst := some data } s
  | deliverFails (data : List Byte) (ok : s.destinationOk = false) :
      Went t s (.deliver data) { t with fin := .const (.error .copyFault), dst := some (Config.partialCopy s.draws) } s.drawn
  | release (d : Dir) (slot : s.slot.get d ≠ .unallocated) : Went t s (.release d) { t with holds := none } (freeBuffer d s)
  | unwait (d : Dir) : Went t s (.unwait d) t (s.setWaiter d none)
  | ack (l : Line) : Went t s (.ack l) t (acknowledge l s)
  | signal (d : Dir) : Went t s (.signal d) t (s.setGate d .signaled)
  | resetDirection (d : Dir) (k : Nat) (free : ∀ d', foreignWait k d' s = false) :
      Went t s (.resetDirection d k) t (resetDirection d s)
  | resetReg (r : SReg) (k : Nat) (free : ∀ d', foreignWait k d' s = false) : Went t s (.resetReg r k) t (s.setReg r 0)

theorem unlessForeignWait_go {k : Nat} {s s' : State} {out : MicroOut} {t' : Task} (h : unlessForeignWait k s out = .go t' s') :
    (∀ d, foreignWait k d s = false) ∧ out = .go t' s' := by
  simp only [unlessForeignWait] at h
  split at h
  · cases h
  · next h1 =>
    split at h
    · cases h
    · next h2 => exact ⟨fun d => by cases d <;> simp_all, h⟩

theorem act_went {m : Micro} {t t' : Task} {s s' : State} (h : act m t s = .go t' s') : Went t s m t' s' := by
  cases m <;> simp only [act] at h
  case read r => cases h; exact .read r
  case write r v =>
    split at h
    · next u hu =>
      cases h
      rcases regWrite_ok hu with ⟨x, rfl, rfl⟩ | ⟨l, rfl, rfl, rfl⟩
      · exact .write x v
      · exact .ackWrite l
    · cases h
  case enter => cases h; exact .enter
  case rmw d u => simp only [readyBlock] at h; cases h; exact .rmw d u
  case putReady d id => cases h; exact .putReady d id
  case claim d len =>
    simp only [claim] at h
    split at h
    · cases h
    · next h1 =>
      split at h
      · cases h
      · next h2 =>
        split at h
        · cases h
        · next dev host ha => cases h; exact .claim d len dev host (by simpa using h1) h2 ha
  case giveHandle d k =>
    simp only [giveHandle] at h
    split at h
    · cases h
    · next h1 => cases h; exact .giveHandle d k h1
  case checkPublished d k =>
    simp only [checkPublished] at h
    split at h
    · cases h
    · next h1 =>
      split at h
      · next h2 => cases h; exact .checkPublished d k (by simpa using h1) h2
      · cases h
  case awaitCompletion d =>
    simp only [startAwaiting] at h
    split at h
    · next h1 => cases h; exact .awaitCompletion d h1
    · cases h
  case waitEnter d k =>
    simp only [enterWait] at h
    split at h
    · next h1 => cases h; exact .waitEnter d k h1
    · cases h
  case waitBlock d =>
    simp only [blockOnGate] at h
    split at h
    · next h1 => cases h; exact .waitBlock d h1
    · cases h
  case copyIn n =>
    simp only [copyFromCaller] at h
    split at h
    · next hs => cases h; exact .copyFails n hs
    · next bs hs => cases h; exact .copyIn n bs hs
  case storeBytes i bs =>
    simp only [storeRest] at h
    split at h
    · next u hu =>
      cases h
      obtain ⟨b, hb, hl, rfl⟩ := storePart_ok hu
      exact .storeBytes i bs b hb hl
    · cases h
  case complete d k =>
    simp only [completeTransfer] at h
    split at h
    · next hm =>
      cases d with
      | write => cases h; exact .completeWrite k hm
      | read => cases h; exact .completeRead k hm
    · cases h
  case loadBytes loaded =>
    simp only [loadRest] at h
    split at h
    · next data hd =>
      cases h
      obtain ⟨b, hb, hl, rfl⟩ := loadPart_ok hd
      have hn : readLength s = b.len := by simp [readLength, hb]
      rw [hn] at hl ⊢
      exact .loadBytes loaded b hb (by omega)
    · cases h
  case deliver data =>
    simp only [copyToCaller] at h
    split at h
    · next hd => cases h; exact .deliver data hd
    · next hd => cases h; exact .deliverFails data (by simpa using hd)
  case release d =>
    simp only [releaseSlot] at h
    split at h
    · cases h
    · next h1 => cases h; exact .release d h1
  case unwait d => cases h; exact .unwait d
  case ack l => cases h; exact .ack l
  case signal d => cases h; exact .signal d
  case resetDirection d k =>
    obtain ⟨hf, ho⟩ := unlessForeignWait_go h
    cases ho; exact .resetDirection d k hf
  case resetReg r k =>
    obtain ⟨hf, ho⟩ := unlessForeignWait_go h
    cases ho; exact .resetReg r k hf

/-- While the procedure's transfer is live, every step has its effect (R175). -/
theorem micro_live {m : Micro} {t : Task} {s : State} (h : live t s = true) : micro m t s = act m t s := by simp [micro, h]

/-- A step that uses no transfer has its effect, whatever the slot holds (R190). -/
theorem micro_free {m : Micro} {t : Task} {s : State} (h : needsTransfer m = false) : micro m t s = act m t s := by simp [micro, h]

/-- A step that uses a transfer released since is refused (R175, U7). -/
theorem micro_gone {m : Micro} {t : Task} {s : State} (h : needsTransfer m = true) (hl : live t s = false) :
    micro m t s = .refuse .transferGone := by simp [micro, h, hl]

/-- A step has its effect, or is refused for want of its transfer. -/
theorem micro_cases (m : Micro) (t : Task) (s : State) :
    ((needsTransfer m = false ∨ live t s = true) ∧ micro m t s = act m t s) ∨
    (needsTransfer m = true ∧ live t s = false ∧ micro m t s = .refuse .transferGone) := by
  cases hn : needsTransfer m
  · exact .inl ⟨.inl rfl, micro_free hn⟩
  · cases hl : live t s
    · exact .inr ⟨rfl, rfl, micro_gone hn hl⟩
    · exact .inl ⟨.inr rfl, micro_live hl⟩

theorem waiterFor_live {d : Dir} {t : Task} {s : State} (h : live t s = true) : waiterFor d t s = s.waiter.get d := if_pos h

theorem waiterFor_gone {d : Dir} {t : Task} {s : State} (h : live t s = false) : waiterFor d t s = none := by simp [waiterFor, h]

/-- A WAIT.d that returns for no transfer leaves the handle's mark as it is (log 15). -/
@[simp] theorem noteWaited_none (d : Dir) (s : State) : noteWaited d none s = s.handle.get d := by
  cases h : s.handle.get d <;> simp [noteWaited, h]

/-- A task that acts on no transfer is always live. -/
@[simp] theorem live_none {t : Task} {s : State} (h : t.holds = none) : live t s = true := by simp [live, h]

theorem live_some {t : Task} {s : State} {d : Dir} {n : Nat} (h : t.holds = some (d, n)) :
    live t s = true ↔ ∃ b, s.buf.get d = some b ∧ b.serial = n := by
  cases hb : s.buf.get d <;> simp [live, h, transferOf, hb]

/-- The transfer in a slot is its buffer: a step that leaves the buffers leaves every transfer live that was (R175). -/
theorem transferOf_of_buf {s s' : State} (d : Dir) (h : s'.buf.get d = s.buf.get d) : transferOf d s' = transferOf d s := by
  simp [transferOf, h]

theorem live_of_buf {s s' : State} (t : Task) (h : s'.buf = s.buf) : live t s' = live t s := by
  cases ht : t.holds with
  | none => rw [live_none ht, live_none ht]
  | some p => simp [live, ht, transferOf, h]

@[simp] theorem transferOf_install (d : Dir) (b : Buffer) (s : State) : transferOf d (install d b s) = some (d, b.serial) := by
  simp [transferOf]

@[simp] theorem transferOf_setReg (d : Dir) (s : State) (r : SReg) (v : Word) : transferOf d (s.setReg r v) = transferOf d s := rfl
@[simp] theorem transferOf_setHandle (d d' : Dir) (s : State) (x : Option Handle) :
    transferOf d (s.setHandle d' x) = transferOf d s := rfl
@[simp] theorem transferOf_setSlot (d d' : Dir) (s : State) (x : Slot) : transferOf d (s.setSlot d' x) = transferOf d s := rfl
@[simp] theorem transferOf_setWaiter (d d' : Dir) (s : State) (x : Option Nat) :
    transferOf d (s.setWaiter d' x) = transferOf d s := rfl
@[simp] theorem transferOf_setGate (d d' : Dir) (s : State) (x : Gate) : transferOf d (s.setGate d' x) = transferOf d s := rfl
@[simp] theorem transferOf_drawn (d : Dir) (s : State) : transferOf d s.drawn = transferOf d s := rfl

theorem micro_went {m : Micro} {t t' : Task} {s s' : State} (h : micro m t s = .go t' s') :
    (needsTransfer m = false ∨ live t s = true) ∧ Went t s m t' s' := by
  rcases micro_cases m t s with ⟨hl, e⟩ | ⟨_, _, e⟩ <;> rw [e] at h
  · exact ⟨hl, act_went h⟩
  · cases h

/-- The other way round: a step that can go on in one of these ways does. -/
theorem went_act {m : Micro} {t t' : Task} {s s' : State} (h : Went t s m t' s') : act m t s = .go t' s' := by
  cases h <;> simp only [act]
  case rmw d u => rfl
  case ackWrite l => simp only [regWrite_ackReg]
  case write r v => rfl
  case claim d len dev host slot pos alloc =>
    simp only [claim]
    rw [if_neg (by simp [slot]), if_neg pos, alloc]
  case giveHandle d k slot => simp only [giveHandle, if_neg slot]
  case checkPublished d k slot owns => simp only [checkPublished, slot, owns, ne_eq, not_true_eq_false, if_false, if_true]
  case awaitCompletion d slot => simp only [startAwaiting, if_pos slot]
  case waitEnter d k waiter => simp only [enterWait, if_pos waiter]
  case waitBlock d gate => simp only [blockOnGate, if_pos gate]
  case copyFails n source => simp only [copyFromCaller, source]
  case copyIn n bs source => simp only [copyFromCaller, source]
  case storeBytes i bs b buf inside =>
    have hl : i + (if s.ready .write then raceBytes s.draws i bs.length else bs).length ≤ b.len := by
      split <;> simpa [raceBytes] using inside
    simp only [storeRest, storePart, memWrite, buf, if_pos hl]
  case completeWrite k may => simp only [completeTransfer, if_pos may]
  case completeRead k may => simp only [completeTransfer, if_pos may]
  case loadBytes loaded b buf inside =>
    have hl : loaded.length + (b.len - loaded.length) ≤ b.len := by omega
    simp only [loadRest, loadPart, memRead, readLength, buf, Option.map_some, Option.getD_some, if_pos hl]
  case deliver data ok => simp only [copyToCaller, ok, if_true]
  case deliverFails data ok => simp only [copyToCaller, ok, Bool.false_eq_true, if_false]
  case release d slot => simp only [releaseSlot, if_neg slot]
  case resetDirection d k free => simp only [unlessForeignWait, free, Bool.false_eq_true, if_false]
  case resetReg r k free => simp only [unlessForeignWait, free, Bool.false_eq_true, if_false]

theorem went_micro {m : Micro} {t t' : Task} {s s' : State} (hl : needsTransfer m = false ∨ live t s = true)
    (h : Went t s m t' s') : micro m t s = .go t' s' := by
  rw [hl.elim micro_free micro_live]; exact went_act h

/-- A step goes on or is refused, but for BEGIN_TRANSFER's indivisible part, which may raise an error, and the block of WAIT, which may
hold the agent. -/
theorem act_settles (m : Micro) (t : Task) (s : State) :
    (∃ t' s', act m t s = .go t' s') ∨ (∃ r, act m t s = .refuse r) ∨ (∃ d len, m = .claim d len) ∨ ∃ d, m = .waitBlock d := by
  cases m with
  | claim d len => exact .inr (.inr (.inl ⟨d, len, rfl⟩))
  | waitBlock d => exact .inr (.inr (.inr ⟨d, rfl⟩))
  | _ =>
    simp only [act, readyBlock, giveHandle, checkPublished, startAwaiting, enterWait, copyFromCaller, storeRest, completeTransfer,
      loadRest, copyToCaller, releaseSlot, unlessForeignWait]
    (repeat' split) <;> simp

/-- Only BEGIN_TRANSFER's indivisible part raises an error as a step, and it leaves the state unchanged. -/
theorem micro_raise {m : Micro} {t : Task} {s s' : State} {e : Err} (h : micro m t s = .raise e s') :
    s' = s ∧ ∃ d len, m = .claim d len ∧ claim d len t s = .raise e s' := by
  rcases micro_cases m t s with ⟨_, hm⟩ | ⟨_, _, hm⟩ <;> rw [hm] at h
  · rcases act_settles m t s with ⟨_, _, ha⟩ | ⟨_, ha⟩ | ⟨d, len, rfl⟩ | ⟨d, rfl⟩
    · rw [ha] at h; cases h
    · rw [ha] at h; cases h
    · exact ⟨(claim_raise h).1, d, len, rfl, h⟩
    · simp only [act, blockOnGate] at h; split at h <;> cases h
  · cases h

/-- Only the block of WAIT holds an agent (R190, R257). -/
theorem micro_hold {m : Micro} {t : Task} {s : State} (h : micro m t s = .hold) : ∃ d, m = .waitBlock d ∧ s.gate.get d = .pending := by
  rcases micro_cases m t s with ⟨_, hm⟩ | ⟨_, _, hm⟩ <;> rw [hm] at h
  · rcases act_settles m t s with ⟨_, _, ha⟩ | ⟨_, ha⟩ | ⟨d, len, rfl⟩ | ⟨d, rfl⟩
    · rw [ha] at h; cases h
    · rw [ha] at h; cases h
    · simp only [act, claim] at h
      (repeat' split at h) <;> cases h
    · simp only [act, blockOnGate] at h
      split at h
      · cases h
      · next hg => exact ⟨d, rfl, by cases hd : s.gate.get d <;> simp_all⟩
  · cases h

/-! ## A turn -/

theorem runMicros_nil (n : Nat) (t : Task) (s : State) (h : t.todo = []) :
    runMicros (n + 1) t s = .done (makeResult t.fin t.vals) t.dst s := by
  simp [runMicros, h]

/-- A step after which steps are left. -/
theorem runMicros_more {n : Nat} {t t' : Task} {s s' : State} {m : Micro} {rest : List Micro} (ht : t.todo = m :: rest)
    (hm : micro m { t with todo := rest } s = .go t' s') (hne : t'.todo ≠ []) : runMicros (n + 1) t s = runMicros n t' s' := by
  cases h : t'.todo with
  | nil => exact absurd h hne
  | cons a l => simp [runMicros, ht, hm, h]

/-- The last step of an operation. -/
theorem runMicros_last {n : Nat} {t t' : Task} {s s' : State} {m : Micro} {rest : List Micro} (ht : t.todo = m :: rest)
    (hm : micro m { t with todo := rest } s = .go t' s') (he : t'.todo = []) :
    runMicros (n + 1) t s = .done (makeResult t'.fin t'.vals) t'.dst s' := by
  simp [runMicros, ht, hm, he]

theorem runMicros_hold {n : Nat} {t : Task} {s : State} {m : Micro} {rest : List Micro} (ht : t.todo = m :: rest)
    (hm : micro m { t with todo := rest } s = .hold) : runMicros (n + 1) t s = .paused t s := by
  simp [runMicros, ht, hm]

theorem runMicros_raise {n : Nat} {t : Task} {s s' : State} {e : Err} {m : Micro} {rest : List Micro} (ht : t.todo = m :: rest)
    (hm : micro m { t with todo := rest } s = .raise e s') : runMicros (n + 1) t s = .done (.error e) t.dst s' := by
  simp [runMicros, ht, hm]

/-- What every step of a turn keeps, the turn keeps: `I` speaks of the steps still to do and of the state. -/
theorem runMicros_induct (I : Task → State → Prop)
    (step : ∀ m rest t s t' s', t.todo = m :: rest → I t s → micro m { t with todo := rest } s = .go t' s' → I t' s') :
    ∀ n t s, I t s →
      (∀ r dst s', runMicros n t s = .done r dst s' → ∃ t', I t' s') ∧
      (∀ t' s', runMicros n t s = .paused t' s' → I t' s') := by
  intro n
  induction n with
  | zero => intro t s hI; simp only [runMicros]; exact ⟨fun _ _ _ h => (by cases h), fun _ _ h => (by cases h; exact hI)⟩
  | succ n ih =>
    intro t s hI
    cases ht : t.todo with
    | nil =>
      rw [runMicros_nil n t s ht]
      exact ⟨fun _ _ _ h => (by cases h; exact ⟨t, hI⟩), fun _ _ h => (by cases h)⟩
    | cons m rest =>
      cases hm : micro m { t with todo := rest } s with
      | raise e u =>
        rw [runMicros_raise ht hm, (micro_raise hm).1]
        exact ⟨fun _ _ _ h => (by cases h; exact ⟨t, hI⟩), fun _ _ h => (by cases h)⟩
      | hold =>
        rw [runMicros_hold ht hm]
        exact ⟨fun _ _ _ h => (by cases h), fun _ _ h => (by cases h; exact hI)⟩
      | refuse r =>
        have : runMicros (n + 1) t s = .refuse r := by simp [runMicros, ht, hm]
        rw [this]
        exact ⟨fun _ _ _ h => (by cases h), fun _ _ h => (by cases h)⟩
      | go u v =>
        have hI' := step m rest t s u v ht hI hm
        by_cases he : u.todo = []
        · rw [runMicros_last ht hm he]
          exact ⟨fun _ _ _ h => (by cases h; exact ⟨u, hI'⟩), fun _ _ h => (by cases h)⟩
        · rw [runMicros_more ht hm he]
          exact ih u v hI'

/-- A property of the state that every step keeps is kept by a turn. -/
theorem runMicros_keeps (P : State → Prop) (step : ∀ m t s t' s', P s → micro m t s = .go t' s' → P s') (n : Nat) (t : Task)
    (s : State) (h : P s) :
    (∀ r dst s', runMicros n t s = .done r dst s' → P s') ∧ (∀ t' s', runMicros n t s = .paused t' s' → P s') := by
  have key := runMicros_induct (fun _ s => P s) (fun m rest t s t' s' _ hI hm => step m _ s t' s' hI hm) n t s h
  exact ⟨fun r dst s' hr => (key.1 r dst s' hr).elim fun _ h => h, key.2⟩

/-! ## How an operation begins and ends -/

theorem beginOperation_idle {todo : List Micro} {fin : Finish} {s : State} (h : s.idle s.caller = true) :
    beginOperation todo fin s = runCallerTask s.caller (newTask todo fin) s := by
  simp [beginOperation, h]

theorem beginOperation_next {todo : List Micro} {fin : Finish} {s t : State} (h : beginOperation todo fin s = .next t) :
    s.idle s.caller = true ∧ runCallerTask s.caller (newTask todo fin) s = .next t := by
  simp only [beginOperation] at h
  split at h
  · next hi => exact ⟨hi, h⟩
  · cases h

/-- A caller's turn that answers a next state ended its operation or stopped with steps left. -/
theorem runCallerTask_next {k : Nat} {tk : Task} {s t : State} (h : runCallerTask k tk s = .next t) :
    (∃ r dst u, runMicros (turnLength s) tk s = .done r dst u ∧ t = u.returns k r dst) ∨
    (∃ tk' u, runMicros (turnLength s) tk s = .paused tk' u ∧ t = u.pauses k tk') := by
  simp only [runCallerTask] at h
  cases hr : runMicros (turnLength s) tk s with
  | done r dst u => rw [hr] at h; cases h; exact .inl ⟨r, dst, u, rfl, rfl⟩
  | paused tk' u => rw [hr] at h; cases h; exact .inr ⟨tk', u, rfl, rfl⟩
  | refuse r => rw [hr] at h; cases h

/-- A reaction's turn that answers a next state ended the reaction or stopped with steps left. -/
theorem runHandlerTask_next {l : Line} {tk : Task} {s t : State} (h : runHandlerTask l tk s = .next t) :
    (∃ r dst u, runMicros (turnLength s) tk s = .done r dst u ∧ t = (u.setHandler l none).turnOver) ∨
    (∃ tk' u, runMicros (turnLength s) tk s = .paused tk' u ∧ t = (u.setHandler l (some tk')).turnOver) := by
  simp only [runHandlerTask] at h
  cases hr : runMicros (turnLength s) tk s with
  | done r dst u => rw [hr] at h; cases h; exact .inl ⟨r, dst, u, rfl, rfl⟩
  | paused tk' u => rw [hr] at h; cases h; exact .inr ⟨tk', u, rfl, rfl⟩
  | refuse r => rw [hr] at h; cases h

theorem dispatchEvent_next {l : Line} {todo : List Micro} {s t : State} (h : dispatchEvent l todo s = .next t) :
    s.handler.get l = none ∧ s.pending.get l = true ∧ runHandlerTask l (newTask todo (.const .ok)) s = .next t := by
  simp only [dispatchEvent] at h
  split at h
  · cases h
  · next h1 =>
    split at h
    · next h2 => exact ⟨by simpa using h1, h2, h⟩
    · cases h

theorem dispatchEvent_ready {l : Line} {todo : List Micro} {s : State} (h1 : s.handler.get l = none)
    (h2 : s.pending.get l = true) : dispatchEvent l todo s = runHandlerTask l (newTask todo (.const .ok)) s := by
  simp [dispatchEvent, h1, h2]

theorem raiseError_next {e : Err} {s t : State} (h : raiseError e s = .next t) :
    s.idle s.caller = true ∧ t = s.returns s.caller (.error e) none := by
  simp only [raiseError] at h
  split at h
  · next hi => cases h; exact ⟨hi, rfl⟩
  · cases h

@[simp] theorem turnLength_none {s : State} (h : s.quantum = none) : turnLength s = 16 := by
  simp [turnLength, h, fullTurn]

/-- A turn has at least one step. -/
theorem turnLength_pos (s : State) : ∃ n, turnLength s = n + 1 := by
  simp only [turnLength]
  split
  · exact ⟨15, rfl⟩
  · next n _ => exact ⟨n, rfl⟩

end Sys2Proof.Machine
end

