-- ==== Sys2Proof/Laws/Exec.lean ====
section
/-! SUPPORT. What exec can do, said once: the steps of each operation, the inversion of exec, and the frame of a turn from the frames of its
steps. The proofs about many operations cite these and unfold no meaning. -/

namespace Sys2Proof.Machine

set_option Elab.async false

/-! ## Small laws of the meanings' helpers -/

theorem lengthTooLong_iff (len : DWord) : lengthTooLong len = true ↔ 4294967295 < len.toNat := by
  simp only [lengthTooLong]; rw [decide_eq_true_iff]; rfl

theorem lengthTooLong_false {len : DWord} (h : len.toNat ≤ 4294967295) : lengthTooLong len = false := by
  rw [Bool.eq_false_iff]; intro hc; rw [lengthTooLong_iff] at hc; omega

/-- A positive bulk length in the domain is the same number of bytes unsigned. -/
theorem bulkLength_bounds {n : DWord} (h1 : 0 < n.toInt) (h2 : n.toInt ≤ 4294967295) :
    ¬ bulkLength n ≤ 0 ∧ lengthTooLong n = false ∧ n.toNat ≤ 4294967295 ∧ 0 < n.toNat := by
  have h3 := BitVec.toInt_eq_toNat_cond n
  have := n.isLt
  have h4 : n.toNat ≤ 4294967295 ∧ 0 < n.toNat := by split at h3 <;> omega
  exact ⟨by simp only [bulkLength]; omega, lengthTooLong_false h4.1, h4⟩

theorem exec_csrRd (r : Reg) (s : State) : exec (csrRd r) s = csrRead r s := by
  rcases r with r | r | r <;> cases r <;> rfl

theorem exec_csrWr (r : Reg) (v : Word) (s : State) : exec (csrWr r v) s = csrWrite r v s := by
  rcases r with r | r | r <;> cases r <;> rfl

theorem exec_setOffsetOf (d : Dir) (o : DWord) (s : State) :
    exec (setOffsetOf d o) s = beginOperation (setOffsetSteps d o) (.const .ok) s := by cases d <;> rfl

theorem exec_completionOf (d : Dir) (s : State) :
    exec (completionOf d) s = dispatchEvent (completionLine d) (completionSteps d) s := by cases d <;> rfl

theorem resume_caller {k : Nat} {s : State} {t : Task} (h : (s.callerOf k).task = some t) :
    resume (.caller k) s = runCallerTask k t s := by
  simp [resume, h]

theorem resume_handler {l : Line} {s : State} {t : Task} (h : s.handler.get l = some t) :
    resume (.handler l) s = runHandlerTask l t s := by
  simp [resume, h]

/-- A caller is blocked in WAIT.d exactly when the next step of its operation is the block. -/
theorem blockedIn_iff (k : Nat) (d : Dir) (s : State) :
    blockedIn k d s = true ↔ ∃ t rest, (s.callerOf k).task = some t ∧ t.todo = .waitBlock d :: rest := by
  simp only [blockedIn, decide_eq_true_eq]
  constructor
  · intro hb
    cases h : (s.callerOf k).task with
    | none => simp [h] at hb
    | some t =>
      simp only [h, Option.map_some, Option.some.injEq] at hb
      cases hh : t.todo with
      | nil => simp [hh] at hb
      | cons a l => simp only [hh, List.head?_cons, Option.some.injEq] at hb; exact ⟨t, l, rfl, by rw [hh, hb]⟩
  · rintro ⟨t, rest, h, hr⟩; simp [h, hr]

/-- A caller held in WAIT.d stays held while the gate is Pending, whatever `slot[d]` holds (R190, R195). -/
theorem resume_held {k : Nat} {d : Dir} {s : State} {t : Task} {rest : List Micro} (h : (s.callerOf k).task = some t)
    (ht : t.todo = .waitBlock d :: rest) (hg : s.gate.get d = .pending) :
    resume (.caller k) s = .next (s.pauses k t) := by
  rw [resume_caller h]
  obtain ⟨n, hn⟩ := turnLength_pos s
  simp only [runCallerTask, hn]
  rw [runMicros_hold ht (by rw [micro_free rfl]; simp [act, blockOnGate, hg])]
  rfl

/-! ## Operations whose first step ends them -/

theorem beginOperation_one {s s' : State} {m : Micro} {fin : Finish} {v : List Word} (h : s.idle s.caller = true)
    (hm : micro m { todo := [], vals := [], fin := fin, dst := none, holds := none } s =
      .go { todo := [], vals := v, fin := fin, dst := none, holds := none } s') :
    beginOperation [m] fin s = .next (s'.returns s.caller (makeResult fin v) none) := by
  obtain ⟨n, hn⟩ := turnLength_pos s
  simp [beginOperation, h, runCallerTask, hn, newTask, runMicros, hm, endCallerTurn]

theorem beginOperation_raise {s : State} {m : Micro} {fin : Finish} {e : Err} {rest : List Micro} (h : s.idle s.caller = true)
    (hm : micro m { todo := rest, vals := [], fin := fin, dst := none, holds := none } s = .raise e s) :
    beginOperation (m :: rest) fin s = .next (s.returns s.caller (.error e) none) := by
  obtain ⟨n, hn⟩ := turnLength_pos s
  simp [beginOperation, h, runCallerTask, hn, newTask, runMicros, hm, endCallerTurn]

theorem beginOperation_refuse {s : State} {m : Micro} {fin : Finish} {e : Refusal} {rest : List Micro}
    (h : s.idle s.caller = true) (hm : micro m { todo := rest, vals := [], fin := fin, dst := none, holds := none } s = .refuse e) :
    beginOperation (m :: rest) fin s = .refused e := by
  obtain ⟨n, hn⟩ := turnLength_pos s
  simp [beginOperation, h, runCallerTask, hn, newTask, runMicros, hm, endCallerTurn]

theorem claim_inFlight {d : Dir} {len : Word} {t : Task} {s : State} (h : s.slot.get d ≠ .unallocated) :
    claim d len t s = .raise .transferAlreadyInFlight s := by simp [claim, h]

theorem claim_failed {d : Dir} {len : Word} {t : Task} {s : State} (h : s.slot.get d = .unallocated)
    (h2 : len = 0 ∨ s.allocator = none) : claim d len t s = .raise .allocationFailed s := by
  simp only [claim, h]
  rw [if_neg (by simp)]
  split
  · rfl
  · next hn => rw [h2.resolve_left hn]

/-! ## The steps of each operation -/

/-- The steps an operation begins with (SIGNAL, which is a single step of its own, has none here). -/
def stepsOf (i : Instr) (s : State) : List Micro :=
  match i with
  | .csrRdReadBufferReady => [.read (.s .readBufferReady)]
  | .csrWrReadBufferReady v => [.write (.s .readBufferReady) v]
  | .csrRdReadBufferAddr => [.read (.s .readBufferAddr)]
  | .csrWrReadBufferAddr v => [.write (.s .readBufferAddr) v]
  | .csrRdReadBufferOffset => [.read (.s .readBufferOffset)]
  | .csrWrReadBufferOffset v => [.write (.s .readBufferOffset) v]
  | .csrRdReadBufferSize => [.read (.s .readBufferSize)]
  | .csrWrReadBufferSize v => [.write (.s .readBufferSize) v]
  | .csrRdWriteBufferReady => [.read (.s .writeBufferReady)]
  | .csrWrWriteBufferReady v => [.write (.s .writeBufferReady) v]
  | .csrRdWriteBufferAddr => [.read (.s .writeBufferAddr)]
  | .csrWrWriteBufferAddr v => [.write (.s .writeBufferAddr) v]
  | .csrRdWriteBufferOffset => [.read (.s .writeBufferOffset)]
  | .csrWrWriteBufferOffset v => [.write (.s .writeBufferOffset) v]
  | .csrRdWriteBufferSize => [.read (.s .writeBufferSize)]
  | .csrWrWriteBufferSize v => [.write (.s .writeBufferSize) v]
  | .csrRdReadTransferDone => [.read (.s .readTransferDone)]
  | .csrWrReadTransferDone v => [.write (.s .readTransferDone) v]
  | .csrRdWriteTransferDone => [.read (.s .writeTransferDone)]
  | .csrWrWriteTransferDone v => [.write (.s .writeTransferDone) v]
  | .csrRdReadFileLengthHi => [.read (.d .readFileLengthHi)]
  | .csrWrReadFileLengthHi v => [.write (.d .readFileLengthHi) v]
  | .csrRdReadFileLength => [.read (.d .readFileLength)]
  | .csrWrReadFileLength v => [.write (.d .readFileLength) v]
  | .csrRdReadBufferTransferDone => [.read (.a .readBufferTransferDone)]
  | .csrWrReadBufferTransferDone v => [.write (.a .readBufferTransferDone) v]
  | .csrRdWriteBufferTransferDone => [.read (.a .writeBufferTransferDone)]
  | .csrWrWriteBufferTransferDone v => [.write (.a .writeBufferTransferDone) v]
  | .csrRdEncParams1 => [.read (.d .encParams1)]
  | .csrWrEncParams1 v => [.write (.d .encParams1) v]
  | .csrRdEncParams2 => [.read (.d .encParams2)]
  | .csrWrEncParams2 v => [.write (.d .encParams2) v]
  | .csrRdRawResolution => [.read (.d .rawResolution)]
  | .csrWrRawResolution v => [.write (.d .rawResolution) v]
  | .csrRdUsecaseMode => [.read (.d .usecaseMode)]
  | .csrWrUsecaseMode v => [.write (.d .usecaseMode) v]
  | .csrRdEncParams3 => [.read (.d .encParams3)]
  | .csrWrEncParams3 v => [.write (.d .encParams3) v]
  | .csrRdEncParams4 => [.read (.d .encParams4)]
  | .csrWrEncParams4 v => [.write (.d .encParams4) v]
  | .csrRdEncParams5 => [.read (.d .encParams5)]
  | .csrWrEncParams5 v => [.write (.d .encParams5) v]
  | .csrRdReadBufferTransferDoneIntr => [.read (.a .readBufferTransferDoneIntr)]
  | .csrWrReadBufferTransferDoneIntr v => [.write (.a .readBufferTransferDoneIntr) v]
  | .csrRdWriteBufferTransferDoneIntr => [.read (.a .writeBufferTransferDoneIntr)]
  | .csrWrWriteBufferTransferDoneIntr v => [.write (.a .writeBufferTransferDoneIntr) v]
  | .csrRdHostDoneIntr => [.read (.a .hostDoneIntr)]
  | .csrWrHostDoneIntr v => [.write (.a .hostDoneIntr) v]
  | .getFileLength => [.read (.d .readFileLength), .read (.d .readFileLengthHi)]
  | .getEncParams =>
    [.read (.d .encParams1), .read (.d .encParams2), .read (.d .encParams3), .read (.d .encParams4), .read (.d .encParams5)]
  | .getResolution => [.read (.d .rawResolution)]
  | .getMode => [.read (.d .usecaseMode)]
  | .getFps => [.read (.d .usecaseMode)]
  | .getFormat => [.read (.d .usecaseMode)]
  | .setReadOffset o => setOffsetSteps .read o
  | .setWriteOffset o => setOffsetSteps .write o
  | .setReadTransferDone => [.write (.s .readTransferDone) doneMark]
  | .clearReadTransferDone => [.write (.s .readTransferDone) doneClear]
  | .setWriteTransferDone => [.write (.s .writeTransferDone) doneMark]
  | .clearWriteTransferDone => [.write (.s .writeTransferDone) doneClear]
  | .beginTransfer d len => [.claim d (len.setWidth 32), .giveHandle d s.caller]
  | .markReady d => [.checkPublished d s.caller, .rmw d .setReady, .awaitCompletion d]
  | .completeAndRelease d => [.complete d s.caller]
  | .wait d => [.waitEnter d s.caller, .waitBlock d]
  | .signal _ => []
  | .abort d => abortSteps d
  | .resetAll => resetAllSteps
  | .read n =>
    [.claim .read (n.setWidth 32), .giveHandle .read s.caller, .checkPublished .read s.caller, .rmw .read .setReady,
      .awaitCompletion .read, .waitEnter .read s.caller, .waitBlock .read, .complete .read s.caller]
  | .write n =>
    [.claim .write (n.setWidth 32), .giveHandle .write s.caller, .copyIn (n.setWidth 32), .checkPublished .write s.caller,
      .rmw .write .setReady, .awaitCompletion .write, .waitEnter .write s.caller, .waitBlock .write, .complete .write s.caller]
  | .seek o => setOffsetSteps .read o
  | .evReadComplete => completionSteps .read
  | .evWriteComplete => completionSteps .write
  | .evHostDone => [.ack .hd, .write (.s .readTransferDone) doneClear, .write (.s .writeTransferDone) doneClear]

/-- The task of an operation: its steps, and for ABORT.d the transfer it aborts. -/
def taskOf (i : Instr) (s : State) (fin : Finish) : Task :=
  { newTask (stepsOf i s) fin with
    holds := match i with
      | .abort d => transferOf d s
      | _ => none }

@[simp] theorem taskOf_todo (i : Instr) (s : State) (fin : Finish) : (taskOf i s fin).todo = stepsOf i s := rfl
@[simp] theorem taskOf_fin (i : Instr) (s : State) (fin : Finish) : (taskOf i s fin).fin = fin := rfl

/-- Everything exec can do when it answers a next state: SIGNAL's own step; a bulk length error; a caller's turn over the steps of the
operation, begun by an idle caller or, for ABORT.d, by the one blocked in WAIT.d; or the turn of a line's reaction. -/
theorem exec_next {i : Instr} {s t : State} (h : exec i s = .next t) :
    (∃ d, i = .signal d ∧ t = s.setGate d .signaled) ∨
    ((∃ n, (i = .read n ∨ i = .write n) ∧ bulkLength n ≤ 0) ∧ s.idle s.caller = true ∧
      t = s.returns s.caller (.error .invalidArgument) none) ∨
    (∃ fin, (s.idle s.caller = true ∨ ∃ d, i = .abort d ∧ s.hasTimeout = true ∧ s.slot.get d = .awaitingCompletion ∧
        s.waiter.get d = some s.caller ∧ blockedIn s.caller d s = true) ∧ (∀ l, i ≠ eventOf l) ∧
      runCallerTask s.caller (taskOf i s fin) s = .next t) ∨
    (∃ l, i = eventOf l ∧ s.handler.get l = none ∧ s.pending.get l = true ∧
      runHandlerTask l (newTask (stepsOf i s) (.const .ok)) s = .next t) := by
  have op : ∀ todo fin, taskOf i s fin = newTask todo fin → (∀ l, i ≠ eventOf l) → beginOperation todo fin s = .next t →
      ∃ fin, (s.idle s.caller = true ∨ ∃ d, i = .abort d ∧ s.hasTimeout = true ∧ s.slot.get d = .awaitingCompletion ∧
        s.waiter.get d = some s.caller ∧ blockedIn s.caller d s = true) ∧ (∀ l, i ≠ eventOf l) ∧
      runCallerTask s.caller (taskOf i s fin) s = .next t := by
    intro todo fin he hi hb
    obtain ⟨h1, h2⟩ := beginOperation_next hb
    exact ⟨fin, .inl h1, hi, he ▸ h2⟩
  cases i
  case signal d => left; simp only [exec, execSignal] at h; cases h; exact ⟨d, rfl, rfl⟩
  case beginTransfer d len =>
    simp only [exec, execBeginTransfer] at h
    split at h
    · cases h
    · exact .inr (.inr (.inl (op _ _ rfl (fun l => by cases l <;> nofun) h)))
  case read n =>
    simp only [exec, execRead, withBulkLength] at h
    split at h
    · next hb => exact .inr (.inl ⟨⟨n, .inl rfl, hb⟩, raiseError_next h⟩)
    · split at h
      · cases h
      · exact .inr (.inr (.inl (op _ _ rfl (fun l => by cases l <;> nofun) h)))
  case write n =>
    simp only [exec, execWrite, withBulkLength] at h
    split at h
    · next hb => exact .inr (.inl ⟨⟨n, .inr rfl, hb⟩, raiseError_next h⟩)
    · split at h
      · cases h
      · exact .inr (.inr (.inl (op _ _ rfl (fun l => by cases l <;> nofun) h)))
  case abort d =>
    simp only [exec, execAbort] at h
    split at h
    · next ht =>
      split at h
      · next hc => exact .inr (.inr (.inl ⟨_, .inr ⟨d, rfl, ht, hc.1, hc.2.1, hc.2.2⟩, fun l => by cases l <;> nofun, h⟩))
      · cases h
    · cases h
  case evReadComplete => exact .inr (.inr (.inr ⟨.rc, rfl, dispatchEvent_next h⟩))
  case evWriteComplete => exact .inr (.inr (.inr ⟨.wc, rfl, dispatchEvent_next h⟩))
  case evHostDone => exact .inr (.inr (.inr ⟨.hd, rfl, dispatchEvent_next h⟩))
  all_goals exact .inr (.inr (.inl (op _ _ rfl (fun l => by cases l <;> nofun) h)))

/-! ## The frame of a turn -/

/-- A set of steps that holds, with each step, those the step puts before the rest of its operation. -/
def StepsClosed (A : Micro → Prop) : Prop :=
  (∀ d len v, A (.claim d len) → A (.write (.s (addrReg d)) v) ∧ A (.write (.s (sizeReg d)) v)) ∧
  (∀ n, A (.copyIn n) → A (.release .write) ∧ ∀ bs, A (.storeBytes 0 bs)) ∧
  (∀ d k, A (.complete d k) → A (.release d) ∧ A (.loadBytes [])) ∧ (∀ l data, A (.loadBytes l) → A (.deliver data))

/-- The steps left after a step are in a closed set if those before it were. -/
theorem went_steps {A : Micro → Prop} (hA : StepsClosed A) {m : Micro} {t t' : Task} {s s' : State} (hm : A m)
    (hr : ∀ x ∈ t.todo, A x) (h : Went t s m t' s') : ∀ x ∈ t'.todo, A x := by
  obtain ⟨hc, hi, hco, hl⟩ := hA
  cases h with
  | claim d len dev host =>
    simp only [List.forall_mem_cons]; exact ⟨(hc d len dev hm).1, (hc d len len hm).2, hr⟩
  | copyFails n => simp only [List.forall_mem_cons]; exact ⟨(hi n hm).1, by simp⟩
  | copyIn n bs => simp only [List.forall_mem_cons]; exact ⟨(hi n hm).2 _, hr⟩
  | completeWrite k => simp only [List.forall_mem_cons]; exact ⟨(hco _ k hm).1, hr⟩
  | completeRead k => simp only [List.forall_mem_cons]; exact ⟨(hco _ k hm).2, (hco _ k hm).1, hr⟩
  | loadBytes l b => simp only [List.forall_mem_cons]; exact ⟨hl _ _ hm, hr⟩
  | _ => exact hr

theorem micro_steps {A : Micro → Prop} (hA : StepsClosed A) {m : Micro} {rest : List Micro} {t t' : Task} {s s' : State}
    (hm : A m) (hr : ∀ x ∈ rest, A x) (h : micro m { t with todo := rest } s = .go t' s') : ∀ x ∈ t'.todo, A x :=
  went_steps hA hm hr (micro_went h).2

/-- What each step of a closed set keeps, a turn over steps of that set keeps. -/
theorem turn_frame {A : Micro → Prop} (hA : StepsClosed A) (P : State → Prop)
    (hP : ∀ m t s t' s', A m → P s → micro m t s = .go t' s' → P s') (n : Nat) (t : Task) (s : State)
    (ht : ∀ x ∈ t.todo, A x) (hs : P s) :
    (∀ r dst s', runMicros n t s = .done r dst s' → P s') ∧ (∀ t' s', runMicros n t s = .paused t' s' → P s') := by
  have key := runMicros_induct (fun t s => (∀ x ∈ t.todo, A x) ∧ P s) (fun m rest t s t' s' hto hI hm =>
    ⟨micro_steps hA (hI.1 m (by simp [hto])) (fun x hx => hI.1 x (by simp [hto, hx])) hm,
      hP m _ s t' s' (hI.1 m (by simp [hto])) hI.2 hm⟩) n t s ⟨ht, hs⟩
  exact ⟨fun r dst s' hr => (key.1 r dst s' hr).elim fun _ h => h.2, fun t' s' hr => (key.2 t' s' hr).2⟩

/-- The frame of exec: a property that the steps of the operation keep, and that does not speak of the agents' records, is kept. -/
theorem exec_frame {i : Instr} {s t : State} (h : exec i s = .next t) {A : Micro → Prop} (hA : StepsClosed A) (P : State → Prop)
    (hi : ∀ x ∈ stepsOf i s, A x) (hP : ∀ m t s t' s', A m → P s → micro m t s = .go t' s' → P s')
    (hsig : ∀ d, i = .signal d → P (s.setGate d .signaled)) (hs : P s)
    (hses : ∀ s k x, P s → P (s.setCaller k x)) (hhan : ∀ s l x, P s → P (s.setHandler l x))
    (hover : ∀ s, P s → P s.turnOver) : P t := by
  rcases exec_next h with ⟨d, rfl, rfl⟩ | ⟨_, _, rfl⟩ | ⟨fin, _, _, h⟩ | ⟨l, _, _, _, h⟩
  · exact hsig d rfl
  · exact hover _ (hses _ _ _ hs)
  · have key := turn_frame hA P hP (turnLength s) (taskOf i s fin) s hi hs
    rcases runCallerTask_next h with ⟨r, dst, u, hu, rfl⟩ | ⟨tk, u, hu, rfl⟩
    · exact hover _ (hses _ _ _ (key.1 _ _ _ hu))
    · exact hover _ (hses _ _ _ (key.2 _ _ hu))
  · have key := turn_frame hA P hP (turnLength s) (newTask (stepsOf i s) (.const .ok)) s hi hs
    rcases runHandlerTask_next h with ⟨r, dst, u, hu, rfl⟩ | ⟨tk, u, hu, rfl⟩
    · exact hover _ (hhan _ _ _ (key.1 _ _ _ hu))
    · exact hover _ (hhan _ _ _ (key.2 _ _ hu))

/-! ## Opening a block, making a part of a copy -/

/-- What opening an `atomic_d` block does: the agent's next step was the block; a block that was open makes its write, and the new one is
open with the word it will write. -/
theorem openedTask_some {t t' : Task} {s s' : State} (h : openedTask t s = some (t', s')) :
    live t s = true ∧ ∃ d u rest, t.todo = .rmw d u :: rest ∧ t' = { t with todo := .putReady d s.draws :: rest } ∧
      s' = ((closeOpen d s).setOpened d (some
        { id := s.draws, word := applyReadyUpdate u ((closeOpen d s).reg (readyReg d)), forTransfer := t.holds.isSome })).drawn := by
  simp only [openedTask] at h
  split at h
  · next hl =>
    split at h
    · next d u rest hto => cases h; exact ⟨hl, d, u, rest, hto, rfl, rfl⟩
    · cases h
  · cases h

theorem openBlock_next {a : Agent} {s t : State} (h : openBlock a s = .next t) :
    (∃ k tk tk' s', a = .caller k ∧ (s.callerOf k).task = some tk ∧ openedTask tk s = some (tk', s') ∧ t = s'.pauses k tk') ∨
    (∃ l tk tk' s', a = .handler l ∧ s.handler.get l = some tk ∧ openedTask tk s = some (tk', s') ∧
      t = (s'.setHandler l (some tk')).turnOver) := by
  cases a with
  | caller k =>
    simp only [openBlock] at h
    split at h
    · cases h
    · next tk' s' ho =>
      obtain ⟨tk, htk, ho⟩ := Option.bind_eq_some_iff.mp ho
      cases h
      exact .inl ⟨k, tk, tk', s', rfl, htk, ho, rfl⟩
  | handler l =>
    simp only [openBlock] at h
    split at h
    · cases h
    · next tk' s' ho =>
      obtain ⟨tk, htk, ho⟩ := Option.bind_eq_some_iff.mp ho
      cases h
      exact .inr ⟨l, tk, tk', s', rfl, htk, ho, rfl⟩

/-- What making a part of a copy does: some bytes are stored, or some are loaded, and the rest of the copy comes next. -/
theorem partTask_some {m : Nat} {t t' : Task} {s s' : State} (h : partTask m t s = .ok (some (t', s'))) :
    live t s = true ∧
    ((∃ i bs rest, t.todo = .storeBytes i bs :: rest ∧ storePart i (bs.take m) s = .ok s' ∧
      t' = { t with todo := .storeBytes (i + (bs.take m).length) (bs.drop m) :: rest }) ∨
     (∃ loaded rest data, t.todo = .loadBytes loaded :: rest ∧ loadPart loaded m s = .ok data ∧ s' = s.drawn ∧
      t' = { t with todo := .loadBytes data :: rest })) := by
  simp only [partTask] at h
  split at h
  · next hl =>
    refine ⟨hl, ?_⟩
    split at h
    · next i bs rest hto =>
      split at h
      · next u hu => cases h; exact .inl ⟨i, bs, rest, hto, hu, rfl⟩
      · cases h
    · next loaded rest hto =>
      split at h
      · next data hd => cases h; exact .inr ⟨loaded, rest, data, hto, hd, rfl, rfl⟩
      · cases h
    · cases h
  · cases h

theorem partCopy_next {k m : Nat} {s t : State} (h : partCopy k m s = .next t) :
    ∃ tk tk' s', (s.callerOf k).task = some tk ∧ partTask m tk s = .ok (some (tk', s')) ∧ t = s'.pauses k tk' := by
  simp only [partCopy] at h
  split at h
  · cases h
  · next tk htk =>
    split at h
    · next tk' s' hp => cases h; exact ⟨tk, tk', s', htk, hp, rfl⟩
    · cases h
    · cases h

/-! ## The device -/

/-- The device reads a register as `RegRead` does (R117), and only the free values drawn can change by it. -/
theorem regRead_state (r : Reg) (s : State) : (regRead r s).2 = s ∨ (regRead r s).2 = s.drawn := by
  rcases r with r | r | r
  · exact .inl rfl
  · exact .inl rfl
  · exact .inr rfl

/-- A device move leaves every class S register alone (R7 duty ii). -/
theorem deviceMove_csr {m : DeviceMove} {s t : State} (h : deviceMove m s = .next t) : t.csr = s.csr := by
  cases m with
  | drive r v => cases h; rfl
  | raise l => cases h; rfl
  | readRegister r => cases h; rcases r with r | r | r <;> rfl
  | fill off bytes =>
    simp only [deviceMove, deviceFill] at h
    split at h
    · cases h
    · split at h <;> cases h; rfl
  | fetch off n =>
    simp only [deviceMove, deviceFetch] at h
    split at h
    · cases h
    · split at h <;> cases h; rfl

end Sys2Proof.Machine
end

