-- ==== Sys2Proof/Laws/PerInstr.lean ====
section
/-! SUPPORT. The family RoundTrip: the bytes of each operation, at its surface, decode to it. One lemma per constructor. -/

namespace Sys2Proof.Laws.RoundTrip

set_option Elab.async false

/-- Decoding the encoding of an operation gives it back, with every operand. -/
def Statement (i : Instr) : Prop := decode i.surface (encode i) = .ok i

theorem csrRdReadBufferReady : Statement .csrRdReadBufferReady := decodeCsr_encodeRd (.s .readBufferReady)
theorem csrWrReadBufferReady (v : Word) : Statement (.csrWrReadBufferReady v) := decodeCsr_encodeWr (.s .readBufferReady) v
theorem csrRdReadBufferAddr : Statement .csrRdReadBufferAddr := decodeCsr_encodeRd (.s .readBufferAddr)
theorem csrWrReadBufferAddr (v : Word) : Statement (.csrWrReadBufferAddr v) := decodeCsr_encodeWr (.s .readBufferAddr) v
theorem csrRdReadBufferOffset : Statement .csrRdReadBufferOffset := decodeCsr_encodeRd (.s .readBufferOffset)
theorem csrWrReadBufferOffset (v : Word) : Statement (.csrWrReadBufferOffset v) := decodeCsr_encodeWr (.s .readBufferOffset) v
theorem csrRdReadBufferSize : Statement .csrRdReadBufferSize := decodeCsr_encodeRd (.s .readBufferSize)
theorem csrWrReadBufferSize (v : Word) : Statement (.csrWrReadBufferSize v) := decodeCsr_encodeWr (.s .readBufferSize) v
theorem csrRdWriteBufferReady : Statement .csrRdWriteBufferReady := decodeCsr_encodeRd (.s .writeBufferReady)
theorem csrWrWriteBufferReady (v : Word) : Statement (.csrWrWriteBufferReady v) := decodeCsr_encodeWr (.s .writeBufferReady) v
theorem csrRdWriteBufferAddr : Statement .csrRdWriteBufferAddr := decodeCsr_encodeRd (.s .writeBufferAddr)
theorem csrWrWriteBufferAddr (v : Word) : Statement (.csrWrWriteBufferAddr v) := decodeCsr_encodeWr (.s .writeBufferAddr) v
theorem csrRdWriteBufferOffset : Statement .csrRdWriteBufferOffset := decodeCsr_encodeRd (.s .writeBufferOffset)
theorem csrWrWriteBufferOffset (v : Word) : Statement (.csrWrWriteBufferOffset v) := decodeCsr_encodeWr (.s .writeBufferOffset) v
theorem csrRdWriteBufferSize : Statement .csrRdWriteBufferSize := decodeCsr_encodeRd (.s .writeBufferSize)
theorem csrWrWriteBufferSize (v : Word) : Statement (.csrWrWriteBufferSize v) := decodeCsr_encodeWr (.s .writeBufferSize) v
theorem csrRdReadTransferDone : Statement .csrRdReadTransferDone := decodeCsr_encodeRd (.s .readTransferDone)
theorem csrWrReadTransferDone (v : Word) : Statement (.csrWrReadTransferDone v) := decodeCsr_encodeWr (.s .readTransferDone) v
theorem csrRdWriteTransferDone : Statement .csrRdWriteTransferDone := decodeCsr_encodeRd (.s .writeTransferDone)
theorem csrWrWriteTransferDone (v : Word) : Statement (.csrWrWriteTransferDone v) := decodeCsr_encodeWr (.s .writeTransferDone) v
theorem csrRdReadFileLengthHi : Statement .csrRdReadFileLengthHi := decodeCsr_encodeRd (.d .readFileLengthHi)
theorem csrWrReadFileLengthHi (v : Word) : Statement (.csrWrReadFileLengthHi v) := decodeCsr_encodeWr (.d .readFileLengthHi) v
theorem csrRdReadFileLength : Statement .csrRdReadFileLength := decodeCsr_encodeRd (.d .readFileLength)
theorem csrWrReadFileLength (v : Word) : Statement (.csrWrReadFileLength v) := decodeCsr_encodeWr (.d .readFileLength) v
theorem csrRdReadBufferTransferDone : Statement .csrRdReadBufferTransferDone := decodeCsr_encodeRd (.a .readBufferTransferDone)
theorem csrWrReadBufferTransferDone (v : Word) : Statement (.csrWrReadBufferTransferDone v) := decodeCsr_encodeWr (.a .readBufferTransferDone) v
theorem csrRdWriteBufferTransferDone : Statement .csrRdWriteBufferTransferDone := decodeCsr_encodeRd (.a .writeBufferTransferDone)
theorem csrWrWriteBufferTransferDone (v : Word) : Statement (.csrWrWriteBufferTransferDone v) := decodeCsr_encodeWr (.a .writeBufferTransferDone) v
theorem csrRdEncParams1 : Statement .csrRdEncParams1 := decodeCsr_encodeRd (.d .encParams1)
theorem csrWrEncParams1 (v : Word) : Statement (.csrWrEncParams1 v) := decodeCsr_encodeWr (.d .encParams1) v
theorem csrRdEncParams2 : Statement .csrRdEncParams2 := decodeCsr_encodeRd (.d .encParams2)
theorem csrWrEncParams2 (v : Word) : Statement (.csrWrEncParams2 v) := decodeCsr_encodeWr (.d .encParams2) v
theorem csrRdRawResolution : Statement .csrRdRawResolution := decodeCsr_encodeRd (.d .rawResolution)
theorem csrWrRawResolution (v : Word) : Statement (.csrWrRawResolution v) := decodeCsr_encodeWr (.d .rawResolution) v
theorem csrRdUsecaseMode : Statement .csrRdUsecaseMode := decodeCsr_encodeRd (.d .usecaseMode)
theorem csrWrUsecaseMode (v : Word) : Statement (.csrWrUsecaseMode v) := decodeCsr_encodeWr (.d .usecaseMode) v
theorem csrRdEncParams3 : Statement .csrRdEncParams3 := decodeCsr_encodeRd (.d .encParams3)
theorem csrWrEncParams3 (v : Word) : Statement (.csrWrEncParams3 v) := decodeCsr_encodeWr (.d .encParams3) v
theorem csrRdEncParams4 : Statement .csrRdEncParams4 := decodeCsr_encodeRd (.d .encParams4)
theorem csrWrEncParams4 (v : Word) : Statement (.csrWrEncParams4 v) := decodeCsr_encodeWr (.d .encParams4) v
theorem csrRdEncParams5 : Statement .csrRdEncParams5 := decodeCsr_encodeRd (.d .encParams5)
theorem csrWrEncParams5 (v : Word) : Statement (.csrWrEncParams5 v) := decodeCsr_encodeWr (.d .encParams5) v
theorem csrRdReadBufferTransferDoneIntr : Statement .csrRdReadBufferTransferDoneIntr := decodeCsr_encodeRd (.a .readBufferTransferDoneIntr)
theorem csrWrReadBufferTransferDoneIntr (v : Word) : Statement (.csrWrReadBufferTransferDoneIntr v) := decodeCsr_encodeWr (.a .readBufferTransferDoneIntr) v
theorem csrRdWriteBufferTransferDoneIntr : Statement .csrRdWriteBufferTransferDoneIntr := decodeCsr_encodeRd (.a .writeBufferTransferDoneIntr)
theorem csrWrWriteBufferTransferDoneIntr (v : Word) : Statement (.csrWrWriteBufferTransferDoneIntr v) := decodeCsr_encodeWr (.a .writeBufferTransferDoneIntr) v
theorem csrRdHostDoneIntr : Statement .csrRdHostDoneIntr := decodeCsr_encodeRd (.a .hostDoneIntr)
theorem csrWrHostDoneIntr (v : Word) : Statement (.csrWrHostDoneIntr v) := decodeCsr_encodeWr (.a .hostDoneIntr) v
theorem getFileLength : Statement .getFileLength := decodeCommand_encodeArg 0x00 0
theorem getEncParams : Statement .getEncParams := decodeCommand_encodeArg 0x01 0
theorem getResolution : Statement .getResolution := decodeCommand_encodeArg 0x02 0
theorem getMode : Statement .getMode := decodeCommand_encodeArg 0x03 0
theorem getFps : Statement .getFps := decodeCommand_encodeArg 0x04 0
theorem getFormat : Statement .getFormat := decodeCommand_encodeArg 0x05 0
theorem setReadOffset (o : DWord) : Statement (.setReadOffset o) := decodeCommand_encodeArg 0x06 o
theorem setWriteOffset (o : DWord) : Statement (.setWriteOffset o) := decodeCommand_encodeArg 0x07 o
theorem setReadTransferDone : Statement .setReadTransferDone := decodeCommand_encodeArg 0x08 0
theorem clearReadTransferDone : Statement .clearReadTransferDone := decodeCommand_encodeArg 0x09 0
theorem setWriteTransferDone : Statement .setWriteTransferDone := decodeCommand_encodeArg 0x0A 0
theorem clearWriteTransferDone : Statement .clearWriteTransferDone := decodeCommand_encodeArg 0x0B 0
theorem beginTransfer (d : Dir) (len : DWord) : Statement (.beginTransfer d len) := by
  cases d
  · exact decodeProcedure_encodeArg 0x10 len
  · exact decodeProcedure_encodeArg 0x11 len
theorem markReady (d : Dir) : Statement (.markReady d) := by
  cases d
  · exact decodeProcedure_encodeArg 0x12 0
  · exact decodeProcedure_encodeArg 0x13 0
theorem completeAndRelease (d : Dir) : Statement (.completeAndRelease d) := by
  cases d
  · exact decodeProcedure_encodeArg 0x14 0
  · exact decodeProcedure_encodeArg 0x15 0
theorem wait (d : Dir) : Statement (.wait d) := by
  cases d
  · exact decodeProcedure_encodeArg 0x16 0
  · exact decodeProcedure_encodeArg 0x17 0
theorem signal (d : Dir) : Statement (.signal d) := by
  cases d
  · exact decodeProcedure_encodeArg 0x18 0
  · exact decodeProcedure_encodeArg 0x19 0
theorem abort (d : Dir) : Statement (.abort d) := by
  cases d
  · exact decodeProcedure_encodeArg 0x1A 0
  · exact decodeProcedure_encodeArg 0x1B 0
theorem resetAll : Statement .resetAll := decodeProcedure_encodeArg 0x20 0
theorem read (n : DWord) : Statement (.read n) := decodeProcedure_encodeArg 0x30 n
theorem write (n : DWord) : Statement (.write n) := decodeProcedure_encodeArg 0x31 n
theorem seek (o : DWord) : Statement (.seek o) := decodeProcedure_encodeArg 0x32 o
theorem evReadComplete : Statement .evReadComplete := rfl
theorem evWriteComplete : Statement .evWriteComplete := rfl
theorem evHostDone : Statement .evHostDone := rfl

end Sys2Proof.Laws.RoundTrip
end

