-- ==== Sys2Proof/Laws/Step.lean ====
section
/-! SUPPORT. The induction over the moves of the machine, packaged once: what every step of the agents, every open block, every part of a
copy and every device move keeps, every step of the machine keeps. -/

namespace Sys2Proof.Machine

set_option Elab.async false

/-! ## The agents' records under one step -/

/-- A step of one agent changes no other agent's operation, but that of a caller a session reset takes out of its WAIT (R282; log 20). -/
theorem went_callerOf {m : Micro} {t t' : Task} {s s' : State} (h : Went t s m t' s') (k : Nat) :
    s'.callerOf k = s.callerOf k ∨
      ((∃ d j, m = .resetDirection d j ∧ s.waiter.get d = some k) ∧ (s'.callerOf k).task = none ∧ (s'.callerOf k).result = none) := by
  cases h with
  | read r => rcases r with r | r | r <;> exact .inl rfl
  | resetDirection d j =>
    rw [resetDirection_callerOf]
    split
    · next hw => exact .inr ⟨⟨d, j, rfl, hw.1⟩, rfl, rfl⟩
    · exact .inl rfl
  | rmw d u => left; simp [State.callerOf]
  | putReady d id => left; simp [State.callerOf]
  | _ => exact .inl rfl

theorem went_handler {m : Micro} {t t' : Task} {s s' : State} (h : Went t s m t' s') : s'.handler = s.handler := by
  cases h with
  | read r => rcases r with r | r | r <;> rfl
  | _ => simp

theorem went_allSteps {p : Micro → Bool} {m : Micro} {t t' : Task} {s s' : State} (h : Went t s m t' s') (hs : s.allSteps p) :
    s'.allSteps p := by
  refine ⟨fun k tk hk => ?_, fun l tk hl => hs.2 l tk (by rwa [went_handler h] at hl)⟩
  rcases went_callerOf h k with e | ⟨_, e, _⟩
  · rw [e] at hk; exact hs.1 k tk hk
  · rw [e] at hk; cases hk

theorem allSteps_setCaller {p : Micro → Bool} {s : State} {k : Nat} {x : Caller} (hs : s.allSteps p)
    (hx : ∀ t, x.task = some t → t.todo.all p = true) : (s.setCaller k x).allSteps p := by
  refine ⟨fun j t hj => ?_, hs.2⟩
  by_cases h : j = k
  · subst h; rw [State.setCaller_callerOf_same] at hj; exact hx t hj
  · rw [State.setCaller_callerOf_other _ _ _ _ h] at hj; exact hs.1 j t hj

theorem allSteps_setHandler {p : Micro → Bool} {s : State} {l : Line} {x : Option Task} (hs : s.allSteps p)
    (hx : ∀ t, x = some t → t.todo.all p = true) : (s.setHandler l x).allSteps p := by
  refine ⟨hs.1, fun l' t hl => ?_⟩
  by_cases h : l' = l
  · subst h; rw [State.setHandler_handler, PerLine.get_set_same] at hl; exact hx t hl
  · rw [State.setHandler_handler, PerLine.get_set_other _ _ _ _ h] at hl; exact hs.2 l' t hl

theorem openedTask_allSteps {p : Micro → Bool} {t t' : Task} {s s' : State} (h : openedTask t s = some (t', s'))
    (hs : s.allSteps p) : s'.allSteps p := by
  obtain ⟨_, d, u, rest, _, _, rfl⟩ := openedTask_some h
  refine ⟨fun k tk hk => hs.1 k tk ?_, fun l tk hl => hs.2 l tk ?_⟩
  · simpa [State.callerOf] using hk
  · simpa using hl

theorem partTask_allSteps {p : Micro → Bool} {n : Nat} {t t' : Task} {s s' : State} (h : partTask n t s = .ok (some (t', s')))
    (hs : s.allSteps p) : s'.allSteps p := by
  rcases (partTask_some h).2 with ⟨i, bs, rest, _, hp, _⟩ | ⟨_, _, _, _, _, rfl, _⟩
  · obtain ⟨b, _, _, rfl⟩ := storePart_ok hp
    exact hs
  · exact hs

theorem deviceMove_agents {m : DeviceMove} {s t : State} (h : deviceMove m s = .next t) :
    t.callers = s.callers ∧ t.handler = s.handler := by
  cases m with
  | drive r v => cases h; exact ⟨rfl, rfl⟩
  | raise l => cases h; exact ⟨rfl, rfl⟩
  | readRegister r => cases h; rcases r with r | r | r <;> exact ⟨rfl, rfl⟩
  | fill off bytes =>
    simp only [deviceMove, deviceFill] at h
    split at h
    · cases h
    · split at h <;> cases h; exact ⟨rfl, rfl⟩
  | fetch off n =>
    simp only [deviceMove, deviceFetch] at h
    split at h
    · cases h
    · split at h <;> cases h; exact ⟨rfl, rfl⟩

theorem deviceMove_allSteps {p : Micro → Bool} {m : DeviceMove} {s t : State} (h : deviceMove m s = .next t) (hs : s.allSteps p) :
    t.allSteps p := by
  obtain ⟨h1, h2⟩ := deviceMove_agents h
  refine ⟨fun k tk hk => hs.1 k tk ?_, fun l tk hl => hs.2 l tk ?_⟩
  · simpa only [State.callerOf, h1] using hk
  · rwa [h2] at hl

/-! ## What keeps a property -/

/-- The property `P` of the state is kept by everything that can happen, as long as the steps of all operations and reactions in progress
satisfy `p`. -/
structure Keeps (p : Micro → Bool) (P : State → Prop) : Prop where
  closed : StepsClosed fun m => p m = true
  oneStep : ∀ {m t s t' s'}, p m = true → P s → micro m t s = .go t' s' → P s'
  opening : ∀ {t s t' s'}, t.todo.all p = true → P s → openedTask t s = some (t', s') → P s' ∧ t'.todo.all p = true
  part : ∀ {n t s t' s'}, t.todo.all p = true → P s → partTask n t s = .ok (some (t', s')) → P s' ∧ t'.todo.all p = true
  device : ∀ {m s t}, P s → deviceMove m s = .next t → P t
  signal : ∀ {s} (d : Dir), P s → P (s.setGate d .signaled)
  record : ∀ {s} (k : Nat) (x : Caller), P s → P (s.setCaller k x)
  reaction : ∀ {s} (l : Line) (x : Option Task), P s → P (s.setHandler l x)
  inputs : ∀ {s : State} (c : Nat) (q : Option Nat) (a : Option (Word × Nat)) (b : Option (List Byte)) (d : Bool) (ms : List Move),
    P s → P { s with caller := c, quantum := q, allocator := a, source := b, destinationOk := d, schedule := ms }

namespace Keeps

variable {p : Micro → Bool} {P : State → Prop}

theorem ended (h : Keeps p P) {s : State} (hs : P s) : P s.turnOver :=
  h.inputs s.caller none s.allocator s.source s.destinationOk s.schedule hs

/-- A turn over steps that satisfy `p` keeps the property, and so do the steps it leaves. -/
theorem turn (h : Keeps p P) {n : Nat} {t : Task} {s : State} (ht : t.todo.all p = true) (hs : P s) (ha : s.allSteps p) :
    (∀ r dst s', runMicros n t s = .done r dst s' → P s' ∧ s'.allSteps p) ∧
    (∀ t' s', runMicros n t s = .paused t' s' → t'.todo.all p = true ∧ P s' ∧ s'.allSteps p) := by
  have key := runMicros_induct (fun t s => t.todo.all p = true ∧ P s ∧ s.allSteps p) (fun m rest t s t' s' hto hI hm => by
    obtain ⟨h1, h2, h3⟩ := hI
    rw [hto, List.all_cons, Bool.and_eq_true] at h1
    refine ⟨?_, h.oneStep h1.1 h2 hm, went_allSteps (micro_went hm).2 h3⟩
    rw [List.all_eq_true] at h1 ⊢
    exact went_steps h.closed h1.1 h1.2 (micro_went hm).2) n t s ⟨ht, hs, ha⟩
  exact ⟨fun r dst s' hr => (key.1 r dst s' hr).elim fun _ h => h.2, fun t' s' hr => key.2 t' s' hr⟩

theorem callerTurn (h : Keeps p P) {k : Nat} {t : Task} {s u : State} (ht : t.todo.all p = true) (hs : P s) (ha : s.allSteps p)
    (hr : runCallerTask k t s = .next u) : P u ∧ u.allSteps p := by
  have key := h.turn (n := turnLength s) ht hs ha
  rcases runCallerTask_next hr with ⟨r, dst, v, hv, rfl⟩ | ⟨t', v, hv, rfl⟩
  · obtain ⟨h1, h2⟩ := key.1 _ _ _ hv
    exact ⟨h.ended (h.record _ _ h1), allSteps_setCaller h2 nofun⟩
  · obtain ⟨h1, h2, h3⟩ := key.2 _ _ hv
    exact ⟨h.ended (h.record _ _ h2), allSteps_setCaller h3 (fun _ e => by cases e; exact h1)⟩

theorem handlerTurn (h : Keeps p P) {l : Line} {t : Task} {s u : State} (ht : t.todo.all p = true) (hs : P s) (ha : s.allSteps p)
    (hr : runHandlerTask l t s = .next u) : P u ∧ u.allSteps p := by
  have key := h.turn (n := turnLength s) ht hs ha
  rcases runHandlerTask_next hr with ⟨r, dst, v, hv, rfl⟩ | ⟨t', v, hv, rfl⟩
  · obtain ⟨h1, h2⟩ := key.1 _ _ _ hv
    exact ⟨h.ended (h.reaction _ _ h1), allSteps_setHandler h2 nofun⟩
  · obtain ⟨h1, h2, h3⟩ := key.2 _ _ hv
    exact ⟨h.ended (h.reaction _ _ h2), allSteps_setHandler h3 (fun _ e => by cases e; exact h1)⟩

/-- An operation whose steps satisfy `p` keeps the property. -/
theorem exec (h : Keeps p P) {i : Instr} {s t : State} (hi : (stepsOf i s).all p = true) (hs : P s) (ha : s.allSteps p)
    (he : Sys2Proof.Machine.exec i s = .next t) : P t ∧ t.allSteps p := by
  rcases exec_next he with ⟨d, rfl, rfl⟩ | ⟨_, _, rfl⟩ | ⟨fin, _, _, hr⟩ | ⟨l, _, _, _, hr⟩
  · exact ⟨h.signal d hs, ha⟩
  · exact ⟨h.ended (h.record _ _ hs), allSteps_setCaller ha nofun⟩
  · exact h.callerTurn (t := taskOf i s fin) hi hs ha hr
  · exact h.handlerTurn (t := newTask (stepsOf i s) (.const .ok)) hi hs ha hr

/-- Every move keeps the property, if the operation it issues does. -/
theorem move (h : Keeps p P) {m : Move} {s t : State} (hs : P s) (ha : s.allSteps p)
    (hissue : ∀ surface bytes i k, (m = .issue k surface bytes ∨ (m = .issueByEvent surface bytes ∧ k = s.caller)) →
      decode surface bytes = .ok i → Sys2Proof.Machine.exec i { s with caller := k } = .next t → P t ∧ t.allSteps p)
    (hreset : ∀ k, m = .sessionReset k → (sessionResetSteps k).all p = true) (hm : takeMove m s = .next t) :
    P t ∧ t.allSteps p := by
  have inp := fun c q a b d => h.inputs c q a b d s.schedule hs
  cases m with
  | issue k surface bytes =>
    simp only [takeMove, issue] at hm
    split at hm
    · next i hd =>
      split at hm
      · cases hm
      · exact hissue surface bytes i k (.inl rfl) hd hm
    · simp only [unknownCommand] at hm
      obtain ⟨_, rfl⟩ := raiseError_next hm
      exact ⟨h.ended (h.record _ _ (inp k s.quantum s.allocator s.source s.destinationOk)),
        allSteps_setCaller (s := { s with caller := k }) ha nofun⟩
    · cases hm
  | issueByEvent surface bytes =>
    simp only [takeMove, issueByEvent] at hm
    split at hm
    · next i hd =>
      split at hm
      · exact hissue surface bytes i s.caller (.inr ⟨rfl, rfl⟩) hd hm
      · cases hm
    · cases hm
  | resume a =>
    cases a with
    | caller k =>
      simp only [takeMove, resume] at hm
      split at hm
      · cases hm; exact ⟨h.ended hs, ha⟩
      · next tk htk => exact h.callerTurn (ha.1 k tk htk) hs ha hm
    | handler l =>
      simp only [takeMove, resume] at hm
      split at hm
      · cases hm; exact ⟨h.ended hs, ha⟩
      · next tk htk => exact h.handlerTurn (ha.2 l tk htk) hs ha hm
  | preempt n => cases hm; exact ⟨inp s.caller (some n) s.allocator s.source s.destinationOk, ha⟩
  | openBlock a =>
    simp only [takeMove] at hm
    rcases openBlock_next hm with ⟨k, tk, tk', u, rfl, htk, ho, rfl⟩ | ⟨l, tk, tk', u, rfl, htk, ho, rfl⟩
    · obtain ⟨h1, h2⟩ := h.opening (ha.1 k tk htk) hs ho
      exact ⟨h.ended (h.record _ _ h1), allSteps_setCaller (openedTask_allSteps ho ha) (fun _ e => by cases e; exact h2)⟩
    · obtain ⟨h1, h2⟩ := h.opening (ha.2 l tk htk) hs ho
      exact ⟨h.ended (h.reaction _ _ h1), allSteps_setHandler (openedTask_allSteps ho ha) (fun _ e => by cases e; exact h2)⟩
  | partCopy k n =>
    simp only [takeMove] at hm
    obtain ⟨tk, tk', u, htk, ho, rfl⟩ := partCopy_next hm
    obtain ⟨h1, h2⟩ := h.part (ha.1 k tk htk) hs ho
    exact ⟨h.ended (h.record _ _ h1), allSteps_setCaller (partTask_allSteps ho ha) (fun _ e => by cases e; exact h2)⟩
  | sessionReset k =>
    simp only [takeMove, sessionReset] at hm
    split at hm
    · exact h.callerTurn (t := newTask _ _) (hreset k rfl) hs ha hm
    · cases hm
  | device x => exact ⟨h.device hs hm, deviceMove_allSteps hm ha⟩
  | allocator a => cases hm; exact ⟨inp s.caller s.quantum a s.source s.destinationOk, ha⟩
  | source b => cases hm; exact ⟨inp s.caller s.quantum s.allocator b s.destinationOk, ha⟩
  | destination d => cases hm; exact ⟨inp s.caller s.quantum s.allocator s.source d, ha⟩

/-- Every step of the machine keeps the property, if the operation the next move issues does. -/
theorem machineStep (h : Keeps p P) {s t : State} (hs : P s) (ha : s.allSteps p)
    (hissue : ∀ rest surface bytes i k, (s.schedule = .issue k surface bytes :: rest ∨
        (s.schedule = .issueByEvent surface bytes :: rest ∧ k = s.caller)) → decode surface bytes = .ok i →
      Sys2Proof.Machine.exec i { s with schedule := rest, caller := k } = .next t → P t ∧ t.allSteps p)
    (hreset : ∀ k rest, s.schedule = .sessionReset k :: rest → (sessionResetSteps k).all p = true) (hm : Sys2Proof.Machine.step s = .next t) :
    P t ∧ t.allSteps p := by
  simp only [Sys2Proof.Machine.step, takeNext] at hm
  split at hm
  · cases hm; exact ⟨hs, ha⟩
  · next m rest hsch =>
    refine h.move (s := { s with schedule := rest }) (h.inputs s.caller s.quantum s.allocator s.source s.destinationOk rest hs) ha
      (fun surface bytes i k hk => hissue rest surface bytes i k ?_) (fun k hk => hreset k rest (by rw [hsch, hk])) hm
    rcases hk with rfl | ⟨rfl, e⟩
    · exact .inl hsch
    · exact .inr ⟨hsch, e⟩

end Keeps

end Sys2Proof.Machine
end

