-- ==== Sys2Proof/Tests/Slice0.lean ====
section
/-! SUPPORT. The model's own tests: the WellFormed smoke, words written out from the spec's encodings, the vectors of
95_test_vectors.md (each theorem names its row), and one witness for the hypotheses of every statement of
Certificates/Slice0/Obligations.lean. -/

namespace Sys2Proof.Tests

-- One theorem after another: the many small evaluations below would else each take a thread.
set_option Elab.async false

open Sys2Proof Sys2Proof.Machine

/-! ## WellFormed: each check refuses an ill-formed term -/

theorem test_wf_beginTransfer_tooLong : (Instr.beginTransfer .read 0x100000000).wf = false := by decide
theorem test_wf_beginTransfer_longest : (Instr.beginTransfer .write 0xFFFFFFFF).wf = true := by decide
theorem test_wf_read_tooLong : (Instr.read 0x100000000).wf = false := by decide
theorem test_wf_write_tooLong : (Instr.write 0x7FFFFFFFFFFFFFFF).wf = false := by decide
theorem test_wf_read_negative : (Instr.read 0xFFFFFFFFFFFFFFFF).wf = true := by decide

/-! ## Decoding: words written out from R96 to R100 and from 95_test_vectors.md 2.1, P1 to P5 -/

/-- Format X, the read byte is the offset, the write byte is 0x80 with it (R96, R97): every slot's two words. -/
theorem test_decode_csr_transferBuffer :
    decodeTableWord 40 0x0000000000 = some .csrRdReadBufferReady ∧
    decodeTableWord 40 0x80FFFFFFFF = some (.csrWrReadBufferReady 0xFFFFFFFF) ∧
    decodeTableWord 40 0x0400000000 = some .csrRdReadBufferAddr ∧
    decodeTableWord 40 0x8410002000 = some (.csrWrReadBufferAddr 0x10002000) ∧
    decodeTableWord 40 0x0800000000 = some .csrRdReadBufferOffset ∧
    decodeTableWord 40 0x8800000004 = some (.csrWrReadBufferOffset 4) ∧
    decodeTableWord 40 0x0CDEADBEEF = some .csrRdReadBufferSize ∧
    decodeTableWord 40 0x8C00001000 = some (.csrWrReadBufferSize 0x1000) ∧
    decodeTableWord 40 0x1000000000 = some .csrRdWriteBufferReady ∧
    decodeTableWord 40 0x90ABCD0001 = some (.csrWrWriteBufferReady 0xABCD0001) ∧
    decodeTableWord 40 0x1400000000 = some .csrRdWriteBufferAddr ∧
    decodeTableWord 40 0x9400000002 = some (.csrWrWriteBufferAddr 2) ∧
    decodeTableWord 40 0x1800000000 = some .csrRdWriteBufferOffset ∧
    decodeTableWord 40 0x9800001234 = some (.csrWrWriteBufferOffset 0x1234) ∧
    decodeTableWord 40 0x1C00000000 = some .csrRdWriteBufferSize ∧
    decodeTableWord 40 0x9C00001000 = some (.csrWrWriteBufferSize 0x1000) ∧
    decodeTableWord 40 0x2000000000 = some .csrRdReadTransferDone ∧
    decodeTableWord 40 0xA000000012 = some (.csrWrReadTransferDone 0x12) ∧
    decodeTableWord 40 0x2400000000 = some .csrRdWriteTransferDone ∧
    decodeTableWord 40 0xA4000000EF = some (.csrWrWriteTransferDone 0xEF) := by decide +kernel

theorem test_decode_csr_status :
    decodeTableWord 40 0x3C00000000 = some .csrRdReadFileLengthHi ∧
    decodeTableWord 40 0xBC00000000 = some (.csrWrReadFileLengthHi 0) ∧
    decodeTableWord 40 0x4000000000 = some .csrRdReadFileLength ∧
    decodeTableWord 40 0xC000000001 = some (.csrWrReadFileLength 1) ∧
    decodeTableWord 40 0x4C00000000 = some .csrRdEncParams1 ∧
    decodeTableWord 40 0xCC00000001 = some (.csrWrEncParams1 1) ∧
    decodeTableWord 40 0x5000000000 = some .csrRdEncParams2 ∧
    decodeTableWord 40 0xD000000001 = some (.csrWrEncParams2 1) ∧
    decodeTableWord 40 0x5400000000 = some .csrRdRawResolution ∧
    decodeTableWord 40 0xD404380780 = some (.csrWrRawResolution 0x04380780) ∧
    decodeTableWord 40 0x5800000000 = some .csrRdUsecaseMode ∧
    decodeTableWord 40 0xD800000796 = some (.csrWrUsecaseMode 0x796) ∧
    decodeTableWord 40 0x5C00000000 = some .csrRdEncParams3 ∧
    decodeTableWord 40 0xDC00000001 = some (.csrWrEncParams3 1) ∧
    decodeTableWord 40 0x6000000000 = some .csrRdEncParams4 ∧
    decodeTableWord 40 0xE000000001 = some (.csrWrEncParams4 1) ∧
    decodeTableWord 40 0x6400000000 = some .csrRdEncParams5 ∧
    decodeTableWord 40 0xE400000001 = some (.csrWrEncParams5 1) := by decide +kernel

theorem test_decode_csr_acknowledge :
    decodeTableWord 40 0x4400000000 = some .csrRdReadBufferTransferDone ∧
    decodeTableWord 40 0xC400000001 = some (.csrWrReadBufferTransferDone 1) ∧
    decodeTableWord 40 0x4800000000 = some .csrRdWriteBufferTransferDone ∧
    decodeTableWord 40 0xC800000001 = some (.csrWrWriteBufferTransferDone 1) ∧
    decodeTableWord 40 0x6800000000 = some .csrRdReadBufferTransferDoneIntr ∧
    decodeTableWord 40 0xE800000001 = some (.csrWrReadBufferTransferDoneIntr 1) ∧
    decodeTableWord 40 0x6C00000000 = some .csrRdWriteBufferTransferDoneIntr ∧
    decodeTableWord 40 0xEC00000001 = some (.csrWrWriteBufferTransferDoneIntr 1) ∧
    decodeTableWord 40 0x7000000000 = some .csrRdHostDoneIntr ∧
    decodeTableWord 40 0xF0000000AC = some (.csrWrHostDoneIntr 0xAC) := by decide +kernel

/-- 2.1: the words the CSR decoder refuses, each under its own name. -/
theorem test_decode_csr_refused :
    decode .csr [0, 0, 0, 0, 0xA8] = .error .unmappedOffset ∧ decode .csr [0, 0, 0, 0, 0x38] = .error .unmappedOffset ∧
    decode .csr [0, 0, 0, 0, 0x74] = .error .unmappedOffset ∧ decode .csr [0, 0, 0, 0, 0x78] = .error .unmappedOffset ∧
    decode .csr [0, 0, 0, 0, 0x7C] = .error .unmappedOffset ∧ decode .csr [0, 0, 0, 0, 0x82] = .error .misaligned ∧
    decode .csr [0, 0, 0, 0, 0x3D] = .error .misaligned ∧ decode .csr [0, 0, 0, 0] = .error .badWidth := by decide

/-- R98: the twelve commands; the argument of a command that takes none is ignored (2.6). -/
theorem test_decode_command :
    decodeTableWord 72 0x000000000000000000 = some .getFileLength ∧
    decodeTableWord 72 0x010000000000000000 = some .getEncParams ∧
    decodeTableWord 72 0x020000000000000000 = some .getResolution ∧
    decodeTableWord 72 0x03FFFFFFFFFFFFFFFF = some .getMode ∧
    decodeTableWord 72 0x040000000000000000 = some .getFps ∧
    decodeTableWord 72 0x050000000000000000 = some .getFormat ∧
    decodeTableWord 72 0x060000000000010004 = some (.setReadOffset 0x10004) ∧
    decodeTableWord 72 0x0700000000ABCD1234 = some (.setWriteOffset 0xABCD1234) ∧
    decodeTableWord 72 0x080000000000000000 = some .setReadTransferDone ∧
    decodeTableWord 72 0x090000000000000000 = some .clearReadTransferDone ∧
    decodeTableWord 72 0x0A0000000000000000 = some .setWriteTransferDone ∧
    decodeTableWord 72 0x0B0000000000000000 = some .clearWriteTransferDone := by decide +kernel

/-- R99: the procedures, in both directions. -/
theorem test_decode_procedure :
    decodeTableWord 72 0x100000000000000010 = some (.beginTransfer .read 16) ∧
    decodeTableWord 72 0x110000000000001000 = some (.beginTransfer .write 0x1000) ∧
    decodeTableWord 72 0x120000000000000000 = some (.markReady .read) ∧
    decodeTableWord 72 0x130000000000000000 = some (.markReady .write) ∧
    decodeTableWord 72 0x140000000000000000 = some (.completeAndRelease .read) ∧
    decodeTableWord 72 0x150000000000000000 = some (.completeAndRelease .write) ∧
    decodeTableWord 72 0x160000000000000000 = some (.wait .read) ∧
    decodeTableWord 72 0x170000000000000000 = some (.wait .write) ∧
    decodeTableWord 72 0x180000000000000000 = some (.signal .read) ∧
    decodeTableWord 72 0x190000000000000000 = some (.signal .write) ∧
    decodeTableWord 72 0x1A0000000000000000 = some (.abort .read) ∧
    decodeTableWord 72 0x1B0000000000000000 = some (.abort .write) ∧
    decodeTableWord 72 0x200000000000000000 = some .resetAll ∧
    decodeTableWord 72 0x300000000000000010 = some (.read 16) ∧
    decodeTableWord 72 0x310000000000001000 = some (.write 0x1000) ∧
    decodeTableWord 72 0x320000000000010004 = some (.seek 0x10004) := by decide +kernel

/-- R100, R102: the three lines; 0b11 is no line. -/
theorem test_decode_event :
    decodeTableWord 2 0 = some .evReadComplete ∧ decodeTableWord 2 1 = some .evWriteComplete ∧
    decodeTableWord 8 2 = some .evHostDone ∧ decodeTableWord 8 3 = none := by decide +kernel

/-- 2.6: unknown codes at the command surface, the procedures' selectors among them (R99, R213), and an unknown selector. -/
theorem test_decode_unknown :
    decode .command [0, 0, 0, 0, 0, 0, 0, 0, 0x0C] = .error .unknownCommand ∧
    decode .command [0, 0, 0, 0, 0, 0, 0, 0, 0x10] = .error .unknownCommand ∧
    decode .command [0, 0, 0, 0, 0, 0, 0, 0, 0xFF] = .error .unknownCommand ∧
    decode .procedure [0, 0, 0, 0, 0, 0, 0, 0, 0x1C] = .error .unknownSelector := by decide

/-- The encoder writes the same words: P1 steps 2, 6, 9 and 2.1 row 1, lowest byte first. -/
theorem test_encode :
    encode (.write 0x1000) = [0x00, 0x10, 0, 0, 0, 0, 0, 0, 0x31] ∧ encode (.markReady .write) = [0, 0, 0, 0, 0, 0, 0, 0, 0x13] ∧
    encode .evWriteComplete = [1] ∧ encode (.csrWrReadBufferSize 0x1000) = [0x00, 0x10, 0, 0, 0x8C] := by decide

/-! ## The codec (2.2, 2.3, S1) -/

theorem test_field :
    fieldGet 0x12345678 28 4 = 0x1 ∧ fieldPut 0x12345678 16 16 0xABCDE = 0xBCDE5678 ∧ fieldPut 0xFFFFFFFF 5 10 0 = 0xFFFF801F ∧
    fieldPut 0 2 3 0xF = 0x0000001C ∧ fieldPut 0 0 32 0x1FFFFFFFF = 0xFFFFFFFF := by decide

theorem test_usecase :
    (decodeMode 0x00000796, decodeFormat 0x00000796, decodeFps 0x00000796) = (2, 5, 60) ∧
    (decodeMode 0xFFFF8796, decodeFormat 0xFFFF8796, decodeFps 0xFFFF8796) = (2, 5, 60) ∧
    (decodeMode 0x00007FE0, decodeFormat 0x00007FE0, decodeFps 0x00007FE0) = (0, 0, 1023) ∧
    (decodeMode 0x0000001C, decodeFormat 0x0000001C, decodeFps 0x0000001C) = (0, 7, 0) ∧
    encodeUsecase 2 5 60 = 0x00000796 ∧ encodeUsecase 7 9 1084 = 0x00000787 := by decide

theorem test_resolution :
    decodeResolution 0x04380780 = (1920, 1080) ∧ decodeResolution 0xFFFF0000 = (0, 65535) ∧
    encodeResolution 1920 1080 = 0x04380780 ∧ encodeResolution 0x12345 0x1FFFF = 0xFFFF2345 := by decide

theorem test_words :
    assembleLength 0x89ABCDEF 0x00000001 = 0x0000000189ABCDEF ∧ assembleLength 0xFFFFFFFF 0 = 0x00000000FFFFFFFF ∧
    setReadyBit 0xABCD0000 = 0xABCD0001 ∧ clearReadyBit 0xFFFFFFFF = 0xFFFFFFFE ∧ putOffHi 0x12340001 0x0005 = 0x00050001 ∧
    putOffHi 0x0000FFFE 0x0001 = 0x0001FFFE ∧ offsetLo 0x123456789 = 0x6789 ∧ offsetHi 0x123456789 = 0x2345 := by decide

/-! ## Single steps -/

/-- A reset-all state whose device and inputs are those of P1 to P3; the ADDR registers, unspecified there, are 0 here. -/
def base : State :=
  { State.reset with
    csr :=
      { readBufferReady := 0, readBufferAddr := 0, readBufferOffset := 0, readBufferSize := 0, writeBufferReady := 0
        writeBufferAddr := 0, writeBufferOffset := 0, writeBufferSize := 0, readTransferDone := 0, writeTransferDone := 0 }
    status :=
      { readFileLengthHi := 0x00000001, readFileLength := 0x89ABCDEF, encParams1 := 0, encParams2 := 0, encParams3 := 0
        encParams4 := 0, encParams5 := 0, rawResolution := 0x04380780, usecaseMode := 0x00000796 }
    pending := { rc := false, wc := false, hd := false }
    allocator := some (0x10002000, 0x5000)
    source := some [0x11, 0x22, 0x33, 0x44]
    destinationOk := true
    hasTimeout := true }

/-- The state an outcome answers; `base` where it answers none. -/
def after (o : Host.Outcome State Fault Refusal) : State :=
  match o with
  | .next t => t
  | .fault _ => base
  | .refused _ => base

/-- One operation after another, each of which answers a next state in the tests that use this. -/
def runs (s : State) (is : List Instr) : State := is.foldl (fun s i => after (exec i s)) s

/-- What the caller's last operation returned. -/
def resultOf (s : State) : Option Result := (s.callerOf s.caller).result

/-- The refusal of an outcome, if it is one. -/
def refusalOf (o : Host.Outcome State Fault Refusal) : Option Refusal :=
  match o with
  | .next _ => none
  | .fault _ => none
  | .refused r => some r

/-- Read after write of every class S register (2.1). -/
theorem test_csr_readAfterWrite :
    ∀ r ∈ [SReg.readBufferReady, .readBufferAddr, .readBufferOffset, .readBufferSize, .writeBufferReady, .writeBufferAddr,
      .writeBufferOffset, .writeBufferSize, .readTransferDone, .writeTransferDone],
      resultOf (runs base [csrWr (.s r) 1, csrWr (.s r) 0x8000FFFE, csrRd (.s r)]) = some (.word 0x8000FFFE) := by decide +kernel

/-- A read of a class D register is the device's word; a write is refused (2.1). -/
theorem test_csr_status :
    resultOf (runs base [.csrRdRawResolution]) = some (.word 0x04380780) ∧
    resultOf (runs base [.csrRdReadFileLength]) = some (.word 0x89ABCDEF) ∧
    refusalOf (exec (.csrWrRawResolution 0x04380780) base) = some (.statusRegisterWrite .rawResolution) := by decide +kernel

/-- Writes to 0x44 and 0x48 are refused (2.1); a read of any acknowledge register is a step. -/
theorem test_csr_acknowledge :
    refusalOf (exec (.csrWrReadBufferTransferDone 1) base) = some (.unusedAcknowledgeWrite .readBufferTransferDone) ∧
    refusalOf (exec (.csrWrWriteBufferTransferDone 1) base) = some (.unusedAcknowledgeWrite .writeBufferTransferDone) ∧
    isNext (exec .csrRdHostDoneIntr base) = true ∧ isNext (exec .csrRdReadBufferTransferDone base) = true := by decide +kernel

/-- `0xF0_<ACK_VALUE[HD]>` acknowledges the host-done event and no other (2.1). -/
theorem test_csr_acknowledge_hostDone :
    ∃ t, regWrite (.a .hostDoneIntr) (Config.ackValue .hd) { base with pending := { rc := true, wc := true, hd := true } } = .ok t ∧
      t.pending = { rc := true, wc := true, hd := false } ∧ t.csr = base.csr := by
  refine ⟨acknowledge .hd { base with pending := { rc := true, wc := true, hd := true } }, ?_, rfl, rfl⟩
  simp [regWrite, ackLine]

/-- 2.6, P3 steps 1 to 6. -/
theorem test_queries :
    resultOf (runs base [.getFileLength]) = some (.length 0x0000000189ABCDEF) ∧
    resultOf (runs base [.getResolution]) = some (.resolution 1920 1080) ∧
    resultOf (runs base [.getMode]) = some (.mode 2) ∧ resultOf (runs base [.getFps]) = some (.fps 60) ∧
    resultOf (runs base [.getFormat]) = some (.format 5) := by decide +kernel

/-- 2.3: the offset split, with an old offset and a ready bit present. -/
theorem test_setOffset :
    (runs (base.setReg .readBufferReady 0x12340001) [.setReadOffset 0x50000]).reg .readBufferReady = 0x00050001 ∧
    (runs base [.setWriteOffset 0x123456789]).reg .writeBufferOffset = 0x6789 ∧
    (runs base [.setWriteOffset 0x123456789]).reg .writeBufferReady = 0x23450000 ∧
    (runs base [.seek 0x10004]).reg .readBufferReady = 0x00010000 := by decide +kernel

/-- S8, P3 steps 7, 8, 12. -/
theorem test_doneFlags :
    (runs base [.setReadTransferDone]).reg .readTransferDone = 0xEF ∧
    (runs base [.setWriteTransferDone]).reg .writeTransferDone = 0xEF ∧
    (runs base [.setReadTransferDone, .clearReadTransferDone]).done .read = some false ∧
    (runs base [.setWriteTransferDone, .clearWriteTransferDone]).done .write = some false ∧
    (base.setReg .readTransferDone 0x12).done .read = none := by decide +kernel

/-- S5: the registers of S5's instance after RESET_ALL. -/
theorem test_resetAll :
    (runs { base with csr :=
      { readBufferReady := 0x00010001, readBufferAddr := 0x10002000, readBufferOffset := 4, readBufferSize := 0x10
        writeBufferReady := 0xABCD0001, writeBufferAddr := 0x10000000, writeBufferOffset := 0x1234, writeBufferSize := 0x1000
        readTransferDone := 0xEF, writeTransferDone := 0xEF } } [.resetAll]).csr =
      { base.csr with readBufferAddr := 0x10002000, writeBufferAddr := 0x10000000 } := by decide +kernel

/-- 2.4: BEGIN_TRANSFER and its errors. -/
theorem test_beginTransfer :
    (runs base [.beginTransfer .write 0xFFFFFFFF]).reg .writeBufferSize = 0xFFFFFFFF ∧
    (runs base [.beginTransfer .write 4096]).reg .writeBufferAddr = 0x10002000 ∧
    resultOf (runs base [.beginTransfer .write 0]) = some (.error .allocationFailed) ∧
    resultOf (runs base [.beginTransfer .read 16, .markReady .read, .beginTransfer .read 0]) =
      some (.error .transferAlreadyInFlight) := by decide +kernel

/-- 2.4: MARK_READY on each slot state. -/
theorem test_markReady :
    (runs base [.beginTransfer .read 16, .seek 0xABCD0000, .markReady .read]).reg .readBufferReady = 0xABCD0001 ∧
    (runs base [.beginTransfer .read 16, .markReady .read]).slot = { r := .awaitingCompletion, w := .unallocated } ∧
    refusalOf (exec (.markReady .read) base) = some (.slotNotPublished .read) := by decide +kernel

/-- 2.5: the gate's table. -/
theorem test_gate :
    (runs base [.signal .read, .signal .read, .wait .read]).gate = { r := .pending, w := .pending } ∧
    (runs base [.signal .read, .wait .read, .wait .read]).waiter = { r := some 0, w := none } ∧
    blockedIn 0 .read (runs base [.wait .read, .signal .write]) = true ∧
    refusalOf (exec (.wait .read) { runs base [.wait .read] with caller := 1 }) = some (.secondWaiter .read) := by decide +kernel

/-- 2.4: COMPLETE_AND_RELEASE after an early event; WRITE's early signal returns at once (P1's other schedules). -/
theorem test_completeAndRelease :
    (runs base [.beginTransfer .write 16, .markReady .write, .signal .write, .wait .write, .completeAndRelease .write]).slot =
      { r := .unallocated, w := .unallocated } ∧
    resultOf (runs base [.beginTransfer .write 16, .markReady .write, .signal .write, .wait .write,
      .completeAndRelease .write]) = some (.bytes []) ∧
    refusalOf (exec (.completeAndRelease .write) (runs base [.beginTransfer .write 16, .markReady .write])) =
      some (.completionNotAwaited .write) := by decide +kernel

/-- 2.4: ABORT.W, with the register of its row. -/
theorem test_abort :
    (runs (base.setReg .writeBufferReady 0x00050000) [.beginTransfer .write 16, .markReady .write, .wait .write,
      .abort .write]).reg .writeBufferReady = 0x00050000 ∧
    resultOf (runs base [.beginTransfer .write 16, .markReady .write, .wait .write, .abort .write]) =
      some (.error .timeout) := by decide +kernel

/-- 2.7: READ and WRITE. -/
theorem test_bulk :
    resultOf (runs base [.read 0]) = some (.error .invalidArgument) ∧
    resultOf (runs base [.read 0xFFFFFFFFFFFFFFFF]) = some (.error .invalidArgument) ∧
    (runs base [.read 16]).reg .readBufferReady = 0x00000001 ∧ (runs base [.write 4]).reg .writeBufferSize = 4 ∧
    resultOf (runs { base with source := none } [.write 4096]) = some (.error .copyFault) := by decide +kernel

/-- 2.8: the events' table. -/
theorem test_events :
    (runs ((base.setReg .readBufferReady 0x00010001).setPending .rc true) [.evReadComplete]).reg .readBufferReady = 0x00010000 ∧
    (runs ((base.setReg .writeBufferReady 0xABCD0001).setPending .wc true) [.evWriteComplete]).reg .writeBufferReady =
      0xABCD0000 ∧
    (runs (base.setPending .wc true) [.evWriteComplete]).gate = { r := .pending, w := .signaled } ∧
    (runs (((base.setReg .readTransferDone 0xEF).setReg .writeTransferDone 0xEF).setPending .hd true) [.evHostDone]).csr =
      base.csr ∧
    refusalOf (exec .evHostDone base) = some (.eventNotPending .hd) := by decide +kernel

/-- One move of the schedule after another. -/
def moves (s : State) (ms : List Move) : State := ms.foldl (fun s m => after (takeMove m s)) s

/-- R175, U7: MARK_READY before BEGIN_TRANSFER has returned the handle, and by a caller of another session. -/
theorem test_markReady_needsItsHandle :
    refusalOf (exec (.markReady .read) { runs { base with quantum := some 0 } [.beginTransfer .read 4] with caller := 1 }) =
      some (.handleNotLive .read) ∧
    refusalOf (exec (.markReady .read) { runs base [.beginTransfer .read 4] with caller := 256 }) =
      some (.handleNotLive .read) ∧
    isNext (exec (.markReady .read) { runs base [.beginTransfer .read 4] with caller := 1 }) = true := by decide +kernel

/-- R5, R191, R259: a caller performs no SIGNAL, the event context does, and performs no command. -/
theorem test_signal_is_the_event_contexts :
    refusalOf (takeMove (.issue 0 .procedure [0, 0, 0, 0, 0, 0, 0, 0, 0x18]) base) = some .notAnOrdinaryOperation ∧
    (moves base [.issueByEvent .procedure [0, 0, 0, 0, 0, 0, 0, 0, 0x18]]).gate.get .read = .signaled ∧
    refusalOf (takeMove (.issueByEvent .command [0, 0, 0, 0, 0, 0, 0, 0, 0x02]) base) = some .notAnEventOperation := by
  decide +kernel

/-- R62, U18, U22: a device access past SIZE_d, and one with no buffer. -/
theorem test_device_outside_window :
    refusalOf (deviceMove (.fill 3 [0, 0]) (runs base [.beginTransfer .read 4, .markReady .read])) =
      some (.deviceOutsideWindow .read) ∧
    refusalOf (deviceMove (.fetch 0 1) base) = some (.deviceOutsideWindow .write) := by decide +kernel

/-- R67: a WRITE stopped after two bytes of its copy, then the third byte. -/
theorem test_copy_in_parts :
    ((((moves { base with quantum := some 4 } [.issue 0 .procedure [4, 0, 0, 0, 0, 0, 0, 0, 0x31], .partCopy 0 2]).buf.get
      .write).map fun b => b.content) = some [(0x5000, 0x11), (0x5001, 0x22)]) ∧
    ((((moves { base with quantum := some 4 } [.issue 0 .procedure [4, 0, 0, 0, 0, 0, 0, 0, 0x31], .partCopy 0 2,
      .partCopy 0 1]).buf.get .write).map fun b => b.content) = some [(0x5000, 0x11), (0x5001, 0x22), (0x5002, 0x33)]) := by
  decide +kernel

/-- R234: a READ and a WRITE of one session, both in flight. -/
theorem test_read_and_write_of_one_session :
    (moves base [.issue 0 .procedure [4, 0, 0, 0, 0, 0, 0, 0, 0x30], .issue 1 .procedure [4, 0, 0, 0, 0, 0, 0, 0, 0x31]]).slot =
      { r := .awaitingCompletion, w := .awaitingCompletion } ∧ sessionOf 0 = sessionOf 1 := by decide +kernel

/-- R282: a session reset preempted after its first step, and a WAIT.W of another session entered since. -/
theorem test_reset_refused_under_foreign_wait :
    refusalOf (takeMove (.resume (.caller 0)) (moves { base with quantum := some 0 }
      [.sessionReset 0, .issue 256 .procedure [0, 0, 0, 0, 0, 0, 0, 0, 0x17]])) = some (.foreignWaiter .write) := by decide +kernel

/-- R257: a completion event waits for nobody: with a block of its register open, that block's write comes first. -/
theorem test_event_does_not_wait :
    (runs ((after (takeMove (.openBlock (.caller 0)) (runs { base with quantum := some 0 } [.setReadOffset 0x20000]))).setPending
      .rc true) [.evReadComplete]).reg .readBufferReady = 0x00020000 := by decide +kernel

/-- R175, U7: MARK_READY preempted after its precondition, the transfer reset and another begun: its next step is refused. -/
theorem test_stale_procedure_refused :
    refusalOf (takeMove (.resume (.caller 0)) (moves { runs base [.beginTransfer .read 4] with quantum := some 0 }
      [.issue 0 .procedure [0, 0, 0, 0, 0, 0, 0, 0, 0x12], .sessionReset 1,
        .issue 1 .procedure [4, 0, 0, 0, 0, 0, 0, 0, 0x10]])) = some .transferGone := by decide +kernel

/-- A READ preempted before its WAIT.R, its transfer released by its session's reset, then resumed. -/
def staleRead : State :=
  moves { base with quantum := some 6 } [.issue 0 .procedure [4, 0, 0, 0, 0, 0, 0, 0, 0x30], .sessionReset 1, .resume (.caller 0)]

/-- R190, D34: WAIT.R does not look at `slot[R]`: with no transfer it is held, and returns after a SIGNAL.R; only the completion that
follows it is refused (R175). -/
theorem test_wait_with_no_transfer :
    (staleRead.slot.get .read = .unallocated ∧ blockedIn 0 .read staleRead = true ∧ staleRead.waiter.get .read = some 0) ∧
    (moves staleRead [.issueByEvent .procedure [0, 0, 0, 0, 0, 0, 0, 0, 0x18], .preempt 0, .resume (.caller 0)]).gate.get .read =
      .pending ∧
    refusalOf (takeMove (.resume (.caller 0)) (moves staleRead [.issueByEvent .procedure [0, 0, 0, 0, 0, 0, 0, 0, 0x18], .preempt 0,
      .resume (.caller 0)])) = some .transferGone := by decide +kernel

/-! ## Witnesses: concrete states and operands that meet the hypotheses of each statement -/

/-- `base` with one issue in its schedule. -/
def issued (surface : Surface) (bytes : List Byte) : State := { base with schedule := [.issue 0 surface bytes] }

/-- A read buffer of 4 bytes, Published. -/
def published : State := runs base [.beginTransfer .read 4]

/-- The same, awaiting completion. -/
def awaiting : State := runs published [.markReady .read]

/-- The same, its caller held in WAIT.R. -/
def held : State := runs awaiting [.wait .read]

/-- The same transfer after its completion event and its WAIT.R. -/
def waited : State := runs (awaiting.setPending .rc true) [.evReadComplete, .wait .read]

/-- Caller 0 between the read and the write of SET_READ_OFFSET's `atomic_R` block. -/
def opening : State :=
  after (takeMove (.openBlock (.caller 0)) (runs { base with quantum := some 0 } [.setReadOffset 0x20000]))

/-- A write buffer awaiting completion after its WAIT.W returned. -/
def waitedWrite : State := runs base [.beginTransfer .write 4, .markReady .write, .signal .write, .wait .write]

/-- All three lines pending. -/
def raised (s : State) : State := { s with pending := { rc := true, wc := true, hd := true } }

/-- An outcome that is a next state is one. -/
theorem next_of_isNext {o : Host.Outcome State Fault Refusal} (h : isNext o = true) : ∃ t, o = .next t := by
  cases o with
  | next t => exact ⟨t, rfl⟩
  | fault f => simp [isNext] at h
  | refused r => simp [isNext] at h

theorem witness_StepRunsTheIssuedOperation :
    (issued .command [0, 0, 0, 0, 0, 0, 0, 0, 0x02]).schedule = .issue 0 .command [0, 0, 0, 0, 0, 0, 0, 0, 0x02] :: [] ∧
    decode .command [0, 0, 0, 0, 0, 0, 0, 0, 0x02] = .ok .getResolution ∧
    decodeTableWord 72 0x020000000000000000 = some .getResolution ∧ eventOnly .getResolution = false ∧
    ({ base with schedule := [.issueByEvent .procedure [0, 0, 0, 0, 0, 0, 0, 0, 0x18]] } : State).schedule =
      .issueByEvent .procedure [0, 0, 0, 0, 0, 0, 0, 0, 0x18] :: [] ∧
    decode .procedure [0, 0, 0, 0, 0, 0, 0, 0, 0x18] = .ok (.signal .read) ∧ eventOnly (.signal .read) = true := by
  decide +kernel

/-- Both sides of the boundary between the commands and the unknown codes. -/
theorem witness_UnknownCommandIsUnsupported :
    (∀ code ∈ [(0x0B : Byte), 0x0C], (issued .command [0, 0, 0, 0, 0, 0, 0, 0, code]).schedule =
      .issue 0 .command [0, 0, 0, 0, 0, 0, 0, 0, code] :: []) ∧
    (0x0B : Byte).toNat ≤ 0x0B ∧ ¬ (0x0C : Byte).toNat ≤ 0x0B ∧ base.idle 0 = true := by decide +kernel

/-- The offsets next to the last slot and next to the hole at 0x28. -/
theorem witness_SlotDecodeIsTheTable :
    decodeSlot 0x70 32 = .ok (.a .hostDoneIntr) ∧ decodeSlot 0x24 32 = .ok (.s .writeTransferDone) ∧
    (issued .csr [0, 0, 0, 0, 0x74]).schedule = .issue 0 .csr [0, 0, 0, 0, 0x74] :: [] ∧
    ∀ r : Reg, (0x74 : Byte).toNat % 128 ≠ r.offset := by
  refine ⟨by decide, by decide, by decide +kernel, ?_⟩
  rintro (r | r | r) <;> cases r <;> decide

theorem witness_DecodingKeepsTheWord :
    decode .csr [1, 2, 3, 4, 0x8C] = .ok (.csrWrReadBufferSize 0x04030201) ∧
    carriesData (.csrWrReadBufferSize 0x04030201) = true := by decide

theorem witness_ClassSTransactions :
    base.idle base.caller = true ∧ isNext (deviceMove (.raise .rc) base) = true := by decide +kernel

theorem witness_ClassDTransactions : base.idle base.caller = true := by decide +kernel

theorem witness_ClassATransactions :
    base.idle base.caller = true ∧ (∃ v, v ≠ Config.ackValue .rc) ∧
    (AReg.readBufferTransferDone = .readBufferTransferDone ∨ AReg.readBufferTransferDone = .writeBufferTransferDone) :=
  ⟨by decide +kernel, ⟨Config.ackValue .rc + 1, by bv_omega⟩, .inl rfl⟩

theorem witness_RegisterTransactionFrame :
    (Instr.csrWrReadBufferSize 7).surface = .csr ∧ isNext (exec (.csrWrReadBufferSize 7) base) = true ∧
    SReg.readBufferAddr ∉ writtenRegs (.csrWrReadBufferSize 7) ∧ acknowledges (.csrWrReadBufferSize 7) ≠ some .rc := by
  decide +kernel

theorem witness_RegisterRegionLayout : 0 < 4 ∧ 3 < 4 := by decide

/-- A field at the top of the word, and one that touches it. -/
theorem witness_FieldPutThenGet : 1 ≤ 16 ∧ 16 + 16 ≤ 32 ∧ 1 ≤ 16 ∧ 0 + 16 ≤ 32 ∧ (0 + 16 ≤ 16 ∨ 16 + 16 ≤ 0) := by decide

theorem witness_StatusQueriesReturn : base.idle base.caller = true := by decide +kernel

theorem witness_FileLengthMayBeTorn :
    base.idle base.caller = true ∧ base.quantum = none ∧ { base with quantum := some 0 }.idle 0 = true ∧
    { base with quantum := some 0 }.quantum = some 0 := by decide +kernel

theorem witness_EncParamsReturn : base.idle base.caller = true ∧ base.quantum = none := by decide +kernel

theorem witness_OffsetCommands : base.idle base.caller = true ∧ base.quantum = none ∧ base.opened = { r := none, w := none } := by decide +kernel

theorem witness_DeviceSeesTheOffset :
    ∃ t, base.quantum = none ∧ base.opened.get .write = none ∧ exec (setOffsetOf .write 0x10004) base = .next t ∧
      t.reg (readyReg .write) = t.reg (readyReg .write) ∧ t.reg (offsetReg .write) = t.reg (offsetReg .write) :=
  ⟨_, rfl, rfl, rfl, rfl, rfl⟩

theorem witness_DoneFlagCommands : base.idle base.caller = true := by decide +kernel

theorem witness_StateAfterResetAll : base.idle base.caller = true ∧ base.quantum = none := by decide +kernel

theorem witness_CommandFrame :
    (Instr.setReadOffset 0x10004).surface = .command ∧ isNext (exec (.setReadOffset 0x10004) base) = true ∧
    SReg.writeBufferReady ∉ writtenRegs (.setReadOffset 0x10004) := by decide +kernel

theorem witness_HalfWordsArePreserved :
    base.quantum = none ∧ base.opened.get .read = none ∧ isNext (exec (setOffsetOf .read 0x20000) base) = true ∧
    isNext (exec (.markReady .read) published) = true ∧ isNext (exec (completionOf .read) (raised base)) = true ∧
    Dir.write ≠ .read := by decide +kernel

/-- The shortest and the longest length. -/
theorem witness_BeginTransferSucceeds :
    base.idle base.caller = true ∧ base.quantum = none ∧ base.slot.get .read = .unallocated ∧ 1 ≤ (1 : DWord).toNat ∧
    (0xFFFFFFFF : DWord).toNat ≤ 4294967295 ∧ base.allocator = some (0x10002000, 0x5000) := by decide +kernel

theorem witness_BeginTransferErrors :
    base.idle base.caller = true ∧ (0xFFFFFFFF : DWord).toNat ≤ 4294967295 ∧ published.idle published.caller = true ∧
    published.slot.get .read = .published ∧ awaiting.slot.get .read = .awaitingCompletion ∧
    base.slot.get .read = .unallocated ∧ { base with allocator := none }.allocator = none := by decide +kernel

theorem witness_LengthAboveTheMaximumIsRefused :
    4294967295 < (0x100000000 : DWord).toNat ∧ 4294967295 < (0x100000000 : DWord).toInt := by decide

theorem witness_MarkReadyPublishes :
    published.idle published.caller = true ∧ published.quantum = none ∧ published.opened.get .read = none ∧ published.slot.get .read = .published ∧
    published.handle.get .read = some { owner := 0, awaited := false } ∧ sessionOf published.caller = 0 ∧
    { published with caller := 256 }.idle 256 = true ∧ sessionOf 256 ≠ 0 ∧
    awaiting.idle awaiting.caller = true ∧ awaiting.slot.get .read ≠ .published := by decide +kernel

theorem witness_CompleteAndReleaseReturns :
    waited.idle waited.caller = true ∧ waited.quantum = none ∧ waited.slot.get .read = .awaitingCompletion ∧
    waited.handle.get .read = some { owner := sessionOf waited.caller, awaited := true } ∧ waited.buf.get .read =
      some { len := 4, devAddr := 0x10002000, hostAddr := 0x5000, serial := 0, content := [] } ∧ waited.ready .read = false ∧
    waitedWrite.idle waitedWrite.caller = true ∧ waitedWrite.quantum = none ∧
    waitedWrite.slot.get .write = .awaitingCompletion ∧
    waitedWrite.handle.get .write = some { owner := sessionOf waitedWrite.caller, awaited := true } ∧
    awaiting.idle awaiting.caller = true ∧
    awaiting.handle.get .read ≠ some { owner := sessionOf awaiting.caller, awaited := true } ∧
    base.slot.get .read ≠ .awaitingCompletion := by decide +kernel

theorem witness_AbortEndsInTimeout :
    held.hasTimeout = true ∧ held.quantum = none ∧ held.opened.get .read = none ∧ held.slot.get .read = .awaitingCompletion ∧
    held.waiter.get .read = some held.caller ∧ blockedIn held.caller .read held = true ∧
    { base with hasTimeout := false }.hasTimeout = false ∧ base.slot.get .read ≠ .awaitingCompletion := by decide +kernel

/-- One step of each of the three kinds. -/
theorem witness_SlotTransitions :
    (∃ u t, micro (.claim .read 4) (newTask [] .word) base = .go u t ∧ t.slot.get .read ≠ base.slot.get .read) ∧
    (∃ u t, micro (.awaitCompletion .read) (newTask [] .word) published = .go u t ∧
      t.slot.get .read ≠ published.slot.get .read) ∧
    (∃ u t, micro (.release .read) (newTask [] .word) awaiting = .go u t ∧ t.slot.get .read ≠ awaiting.slot.get .read) :=
  ⟨⟨_, _, rfl, by decide +kernel⟩, ⟨_, _, rfl, by decide +kernel⟩, ⟨_, _, rfl, by decide +kernel⟩⟩

/-- A store that ends at the buffer's last byte, and one that would end beyond it. -/
theorem witness_BufferStoreFrame :
    (∃ t, memWrite published .read 2 [0xAA, 0xBB] = .ok t) ∧ (∃ bs, memRead published .read 0 4 = .ok bs) ∧
    ¬ 3 + [(0xAA : Byte), 0xBB].length ≤ 4 := ⟨⟨_, rfl⟩, ⟨_, rfl⟩, by decide⟩

theorem witness_WaitReturnsOrHolds :
    base.idle base.caller = true ∧ base.quantum = none ∧ base.waiter.get .read = none ∧ base.gate.get .read = .pending ∧
    (runs base [.signal .read]).gate.get .read = .signaled ∧ held.waiter.get .read ≠ none ∧
    { held with caller := 1 }.idle 1 = true ∧
    live { newTask [] .word with holds := some (.read, 0) } (runs base [.signal .read]) = false := by decide +kernel

theorem witness_GateIsSingleShot :
    base.idle base.caller = true ∧ base.quantum = none ∧ base.waiter.get .write = none ∧ base.gate.get .write = .pending := by
  decide +kernel

theorem witness_GatesAreIndependent :
    Dir.read ≠ .write ∧ blockedIn 0 .read held = true ∧ held.gate.get .read = .pending := by decide +kernel

/-- The held caller is blocked, and no other agent does anything. -/
theorem held_waitersBlocked : held.waitersBlocked := by
  have hw : held.waiter = { r := some 0, w := none } := by decide +kernel
  have hs : held.callers =
      [(0, { task := some (newTask [.waitBlock .read] (.const .ok)), result := none, dst := [] })] := by decide +kernel
  have hh : held.handler = { rc := none, wc := none, hd := none } := by decide +kernel
  refine ⟨?_, ?_, ?_⟩
  · rintro (_ | _) k <;> simp only [hw, PerDir.get, State.callerOf, hs] <;> intro h <;> cases h
    exact ⟨_, rfl, rfl⟩
  · intro k t h
    simp only [State.callerOf, hs, assocGet] at h
    split at h <;> cases h
    rfl
  · rintro (_ | _ | _) t <;> simp [hh, PerLine.get]

/-- A move that leaves the wait held, its own session's reset, and ABORT.R. -/
theorem witness_HeldWaitNeedsASignal :
    held.waitersBlocked ∧ blockedIn 0 .read held = true ∧ held.gate.get .read = .pending ∧ isNext (takeMove (.device (.raise .rc)) held) = true ∧
    isNext (takeMove (.sessionReset 1) held) = true ∧
    isNext (takeMove (.issue 0 .procedure [0, 0, 0, 0, 0, 0, 0, 0, 0x1A]) held) = true := ⟨held_waitersBlocked, by decide +kernel⟩

/-- The reaction in one turn; resumed after its block and, with a block open, before it; and the resumed caller. -/
theorem witness_WokenCallerSeesReadyClear :
    (held.gate.get .read = .pending ∧ isNext (exec (completionOf .read) (raised held)) = true ∧
      (runs (raised held) [completionOf .read]).gate.get .read = .signaled) ∧
    (∃ tk t, (runs { raised held with quantum := some 1 } [completionOf .read]).handler.get .rc = some tk ∧
      tk.todo <:+ completionSteps .read ∧ (runs { raised held with quantum := some 1 } [completionOf .read]).ready .read = false ∧
      resume (.handler .rc) (runs { raised held with quantum := some 1 } [completionOf .read]) = .next t ∧
      t.gate.get .read = .signaled) ∧
    (∃ t, t = runs (raised held) [completionOf .read] ∧ t.ready .read = false ∧ t.pending.get .rc = false ∧
      t.gate.get .read = .signaled ∧ blockedIn 0 .read t = true ∧
      isNext (resume (.caller 0) { t with quantum := some 0 }) = true) :=
  ⟨by decide +kernel, ⟨_, _, rfl, by decide +kernel, by decide +kernel, rfl, by decide +kernel⟩,
    ⟨_, rfl, by decide +kernel⟩⟩

theorem witness_CompletionEvents :
    (raised base).pending.get (completionLine .read) = true ∧ (raised base).handler.get (completionLine .read) = none ∧
    (raised base).quantum = none ∧ base.opened.get .read = none ∧ (opening.opened.get .read).isSome = true := by decide +kernel

theorem witness_HostDoneEvent :
    (raised base).pending.get .hd = true ∧ (raised base).handler.get .hd = none ∧ (raised base).quantum = none := by
  decide +kernel

/-- The line not pending, its reaction preempted after one step, and the line pending. -/
theorem witness_EventEntry :
    base.handler.get .rc = none ∧ base.pending.get .rc = false ∧
    (runs { raised base with quantum := some 0 } [.evReadComplete]).handler.get .rc ≠ none ∧
    (raised base).handler.get .rc = none ∧ (raised base).pending.get .rc = true := by decide +kernel

theorem witness_EventsInEitherOrder :
    Line.rc ≠ .hd ∧ (raised base).pending.get .rc = true ∧ (raised base).pending.get .hd = true ∧
    (raised base).handler.get .rc = none ∧ (raised base).handler.get .hd = none ∧ (raised base).quantum = none := by decide +kernel

theorem witness_RepeatedEventChangesNothing :
    (raised awaiting).pending.get (completionLine .read) = true ∧ (raised awaiting).handler.get (completionLine .read) = none ∧
    (raised awaiting).quantum = none := by decide +kernel

theorem witness_InterleavedUpdatesLoseNoBit :
    (raised awaiting).idle (raised awaiting).caller = true ∧ (raised awaiting).pending.get (completionLine .read) = true ∧
    (raised awaiting).handler.get (completionLine .read) = none ∧ (raised awaiting).quantum = none ∧
    (raised awaiting).opened.get .read = none := by decide +kernel

/-- A caller that stands before its block: SET_READ_OFFSET, preempted after its first write. -/
theorem witness_ExclusionCoversBlocksOnly :
    ∃ tk, ((runs { base with quantum := some 0 } [.setReadOffset 0x20000]).callerOf 0).task = some tk ∧
      live tk (runs { base with quantum := some 0 } [.setReadOffset 0x20000]) = true ∧ live (newTask [] .word) opening = true ∧
      tk.todo = [.rmw .read (.putOffHi 2)] ∧
      (runs { base with quantum := some 0 } [.setReadOffset 0x20000]).opened.get .read = none ∧ 1 ≠ 0 ∧
      (runs { base with quantum := some 0 } [.setReadOffset 0x20000]).idle 1 = true :=
  ⟨_, rfl, by decide +kernel, by decide +kernel, by decide +kernel, by decide +kernel, by decide, by decide +kernel⟩

/-- Zero, and the greatest 64-bit word: minus one. -/
theorem witness_BulkLengthMustBePositive :
    base.idle base.caller = true ∧ (0 : DWord).toInt ≤ 0 ∧ (0xFFFFFFFFFFFFFFFF : DWord).toInt ≤ 0 := by decide +kernel

theorem witness_BulkErrors :
    published.idle published.caller = true ∧ 0 < (1 : DWord).toInt ∧ (0xFFFFFFFF : DWord).toInt ≤ 4294967295 ∧
    published.slot.get .read ≠ .unallocated ∧ base.slot.get .read = .unallocated ∧
    { base with allocator := none }.allocator = none ∧
    { base with source := none }.idle base.caller = true ∧ { base with source := none }.quantum = none ∧
    { base with source := none }.slot.get .write = .unallocated ∧
    { base with source := none }.allocator = some (0x10002000, 0x5000) ∧ { base with source := none }.source = none := by
  decide +kernel

theorem witness_ReadEndToEnd :
    base.idle base.caller = true ∧ base.quantum = none ∧ 0 < (4 : DWord).toInt ∧ (4 : DWord).toInt ≤ 4294967295 ∧
    [(0 : Byte), 1, 2, 3].length = (4 : DWord).toNat ∧ base.slot.get .read = .unallocated ∧
    base.allocator = some (0x10002000, 0x5000) ∧ base.waiter.get .read = none ∧ base.handler.get .rc = none ∧
    base.destinationOk = true ∧ base.opened.get .read = none := by decide +kernel

theorem witness_WriteEndToEnd :
    base.idle base.caller = true ∧ base.quantum = none ∧ 0 < (4 : DWord).toInt ∧ (4 : DWord).toInt ≤ 4294967295 ∧
    [(0x11 : Byte), 0x22, 0x33, 0x44].length = (4 : DWord).toNat ∧ base.slot.get .write = .unallocated ∧
    base.allocator = some (0x10002000, 0x5000) ∧ base.source = some [0x11, 0x22, 0x33, 0x44] ∧ base.waiter.get .write = none ∧
    base.handler.get .wc = none ∧ base.opened.get .write = none ∧ base.ready .write = false := by decide +kernel

/-- A reset by caller 1 while caller 0, of its session, is held in WAIT.R, and by caller 256, of another session. -/
theorem witness_SessionResetCleansBothDirections :
    held.idle 1 = true ∧ held.quantum = none ∧ held.waiter = { r := some 0, w := none } ∧ sessionOf 0 = sessionOf 1 ∧
    blockedIn 0 .read held = true ∧ held.slot.get .read ≠ .unallocated ∧ held.idle 256 = true ∧ sessionOf 0 ≠ sessionOf 256 ∧
    .resetReg .readTransferDone 256 ∈ sessionResetSteps 256 := by decide +kernel

theorem witness_RegisterFrame :
    isNext (exec .resetAll base) = true ∧ SReg.readBufferAddr ∉ writtenRegs .resetAll := by decide +kernel

/-- An operation for each clause. -/
theorem witness_ControlStateFrame :
    isNext (exec .getMode base) = true ∧ changesSlot .getMode = false ∧ changesBuffer .getMode = false ∧
    changesGate .getMode = false ∧ changesWaiter .getMode = false ∧ acknowledges .getMode ≠ some .rc ∧
    isNext (exec (.write 4) base) = true ∧ changesBuffer (.write 4) = true ∧ directionOf (.write 4) = some .write ∧
    Dir.read ≠ .write := by decide +kernel

theorem witness_EnvironmentFrame :
    isNext (exec .evReadComplete (raised opening)) = true ∧ 1 ≠ (raised opening).caller ∧ Instr.evReadComplete ≠ eventOf .hd := by
  decide +kernel

/-- An operation that moves each flag each way. -/
theorem witness_FlagWriters :
    (published.opened.get .read = none ∧ awaiting.opened.get .read = none) ∧
    (published.ready .read = false ∧ (runs published [.markReady .read]).ready .read = true) ∧
    (awaiting.ready .read = true ∧ (runs (raised awaiting) [.evReadComplete]).ready .read = false) ∧
    (runs base [.setReadTransferDone]).done .read ≠ base.done .read ∧
    (base.gate.get .read = .pending ∧ (runs base [.signal .read]).gate.get .read = .signaled) ∧
    (runs base [.signal .read, .wait .read]).gate.get .read = .pending ∧
    base.pending.get .rc = false ∧
    ((raised base).pending.get .rc = true ∧ (runs (raised base) [.evReadComplete]).pending.get .rc = false) := by
  decide +kernel

theorem witness_DirectionsAreIndependent :
    directionOf (.read 4) = some .read ∧ Dir.write ≠ .read ∧ isNext (exec (.read 4) base) = true := by decide +kernel

/-- A drive, a raise, a read of a register of each class, a fill of the last two bytes and a fetch of the whole buffer. -/
theorem witness_DeviceFrame :
    isNext (deviceMove (.drive .usecaseMode 7) awaiting) = true ∧ isNext (deviceMove (.raise .rc) awaiting) = true ∧
    isNext (deviceMove (.readRegister (.s .readBufferAddr)) awaiting) = true ∧
    isNext (deviceMove (.readRegister (.d .usecaseMode)) awaiting) = true ∧
    isNext (deviceMove (.readRegister (.a .hostDoneIntr)) awaiting) = true ∧
    isNext (deviceMove (.fill 2 [0xAA, 0xBB]) awaiting) = true ∧
    isNext (deviceMove (.fetch 0 4) (runs base [.beginTransfer .write 4, .markReady .write])) = true := by decide +kernel

/-- A state with no caller and no reaction in progress: the predicate holds of all their steps. -/
theorem allSteps_of_idle {s : State} {p : Micro → Bool} (hc : ∀ q ∈ s.callers, q.2.task = none)
    (hh : s.handler = { rc := none, wc := none, hd := none }) : s.allSteps p := by
  have key : ∀ (cs : List (Nat × Caller)), (∀ q ∈ cs, q.2.task = none) → ∀ k, ((assocGet k cs).getD Caller.fresh).task = none := by
    intro cs
    induction cs with
    | nil => intro _ k; rfl
    | cons c cs ih =>
      intro h k
      simp only [assocGet]
      split
      · exact h c (List.mem_cons_self ..)
      · exact ih (fun q hq => h q (List.mem_cons_of_mem _ hq)) k
  refine ⟨fun k t h => ?_, fun l t h => ?_⟩
  · have := key s.callers hc k
    simp only [State.callerOf] at h
    rw [this] at h
    cases h
  · rw [hh] at h
    cases l <;> cases h

/-- `published` about to issue MARK_READY.R. -/
theorem witness_ReservedBitsStayZero :
    base.idle base.caller = true ∧ base.quantum = none ∧ base.opened = { r := none, w := none } ∧
    published.reservedZero = true ∧ published.allSteps keepsReserved ∧
    isNext (step { published with schedule := [.issue 0 .procedure [0, 0, 0, 0, 0, 0, 0, 0, 0x12]] }) = true :=
  ⟨by decide +kernel, by decide +kernel, by decide +kernel, by decide +kernel,
    allSteps_of_idle (by decide +kernel) (by decide +kernel), by decide +kernel⟩

/-- The two procedures, and a step of a state that is about to issue WAIT.R. -/
theorem witness_PublishedBufferStaysOffered :
    (base.quantum = none ∧ base.opened.get .read = none ∧ base.slot.get .read = .unallocated ∧
      isNext (exec (.beginTransfer .read 4) base) = true ∧ (published.callerOf 0).result = some (.handle .read) ∧
      isNext (exec (.markReady .read) published) = true) ∧
    (awaiting.slot.get .read = .awaitingCompletion ∧ awaiting.buf.get .read =
      some { len := 4, devAddr := 0x10002000, hostAddr := 0x5000, serial := 0, content := [] } ∧
      awaiting.ready .read = true ∧ awaiting.reg .readBufferAddr = 0x10002000 ∧ awaiting.reg .readBufferSize = 4) ∧
    ({ awaiting with schedule := [.issue 0 .procedure [0, 0, 0, 0, 0, 0, 0, 0, 0x16]] } : State).nothingWithdraws .read ∧
    isNext (step { awaiting with schedule := [.issue 0 .procedure [0, 0, 0, 0, 0, 0, 0, 0, 0x16]] }) = true := by
  refine ⟨by decide +kernel, by decide +kernel, ⟨?_, allSteps_of_idle (by decide +kernel) (by decide +kernel), ?_⟩, by decide +kernel⟩
  · rintro m rest h
    cases h
    decide
  · intro o h
    have ho : awaiting.opened = { r := none, w := none } := by decide +kernel
    rw [show ({ awaiting with schedule := [.issue 0 .procedure [0, 0, 0, 0, 0, 0, 0, 0, 0x16]] } : State).opened =
      awaiting.opened from rfl, ho] at h
    cases h

theorem witness_StepKeepsWellFormed :
    { published with schedule := [.issue 0 .procedure [0, 0, 0, 0, 0, 0, 0, 0, 0x12]] }.wf = true ∧
    isNext (step { published with schedule := [.issue 0 .procedure [0, 0, 0, 0, 0, 0, 0, 0, 0x12]] }) = true := by
  decide +kernel

/-- A caller held in WAIT.R, and a step of the device. -/
theorem witness_StepKeepsWaitersBlocked :
    held.waitersBlocked ∧ isNext (step { held with schedule := [.device (.raise .rc)] }) = true :=
  ⟨held_waitersBlocked, by decide +kernel⟩

theorem witness_PreemptionChangesNothing :
    (∀ d, Instr.resetAll ≠ .signal d) ∧ { base with quantum := some 2 }.quantum = some 2 ∧
    isNext (exec .resetAll { base with quantum := some 2 }) = true :=
  ⟨fun _ => by nofun, by decide +kernel, by decide +kernel⟩

end Sys2Proof.Tests
end

section
/-! Proofs for 00_scope.md: what a step of the machine runs (R8, R95, R108), what an operation leaves of the agents and inputs (R8, R9,
R240, R260), that the two directions are independent (R6), and what the device does (R7, R77). -/

namespace Sys2Proof.Machine

/-! ## Issuing an operation -/

/-- The step of a caller's issue (R8, R95, R259). -/
theorem step_issue {s : State} {k : Nat} {surface : Surface} {bytes : List Byte} {rest : List Move} {i : Instr}
    (hs : s.schedule = .issue k surface bytes :: rest) (hd : decode surface bytes = .ok i) :
    step s = if eventOnly i then .refused .notAnOrdinaryOperation else exec i { s with schedule := rest, caller := k } := by
  simp only [step, takeNext, hs, takeMove, issue, hd]

/-- The step of an issue by the event context (R5, R191, R259). -/
theorem step_issueByEvent {s : State} {surface : Surface} {bytes : List Byte} {rest : List Move} {i : Instr}
    (hs : s.schedule = .issueByEvent surface bytes :: rest) (hd : decode surface bytes = .ok i) :
    step s = if eventOnly i then exec i { s with schedule := rest } else .refused .notAnEventOperation := by
  simp only [step, takeNext, hs, takeMove, issueByEvent, hd]

/-- R5, R191, R259: the operations of the event context are the dispatches and SIGNAL. -/
theorem eventOnly_iff (i : Instr) : eventOnly i = true ↔ i.surface = .event ∨ ∃ d, i = .signal d := by
  simp only [eventOnly, decide_eq_true_eq]
  constructor
  · rintro (h | h | h)
    · exact .inr ⟨.read, h⟩
    · exact .inr ⟨.write, h⟩
    · exact .inl h
  · rintro (h | ⟨d, h⟩)
    · exact .inr (.inr h)
    · cases d
      · exact .inl h
      · exact .inr (.inl h)

theorem decodeTableWord_some {nbits w : Nat} {i : Instr} (h : decodeTableWord nbits w = some i) :
    decode (surfaceOf nbits (w % 2 ^ nbits)) (tableBytes nbits w) = .ok i := by
  simp only [decodeTableWord] at h
  split at h
  · next j hj => rw [hj, Option.some.inj h]
  · cases h

theorem withLineRaised_schedule (i : Option Instr) (s : State) : (withLineRaised i s).schedule = s.schedule := by
  simp only [withLineRaised]; split <;> rfl

theorem withLineRaised_caller (i : Option Instr) (s : State) : (withLineRaised i s).caller = s.caller := by
  simp only [withLineRaised]; split <;> rfl

/-- The step of the state in which a table word has been placed (log 1): the word's operation, by the agent that may issue it. -/
theorem step_withFetchWord {s : State} {nbits w : Nat} {i : Instr} (h : decodeTableWord nbits w = some i) :
    step (s.withFetchWord nbits w) = exec i { withLineRaised (some i) s with
      caller := if eventOnly i then s.caller else issuerOf (some i) s } := by
  have hd := decodeTableWord_some h
  have hsch := withLineRaised_schedule (some i) s
  have hcal := withLineRaised_caller (some i) s
  cases he : eventOnly i with
  | true =>
    rw [step_issueByEvent (rest := s.schedule) (by simp [State.withFetchWord, withOperation, issueMove, h, he]) hd, if_pos he]
    simp only [State.withFetchWord, withOperation, h, ← hsch, ← hcal, if_true]
  | false =>
    rw [step_issue (k := issuerOf (some i) s) (rest := s.schedule)
      (by simp [State.withFetchWord, withOperation, issueMove, h, he]) hd, if_neg (by simp [he])]
    simp only [State.withFetchWord, withOperation, h, ← hsch, Bool.false_eq_true, if_false]

/-- Settles O2: the two issues, the placed word, and which operations are the event context's. -/
theorem stepRunsTheIssuedOperation : Obligations.StepRunsTheIssuedOperation :=
  ⟨fun _ _ _ _ _ _ hs hd => step_issue hs hd, fun _ _ _ _ _ hs hd => step_issueByEvent hs hd,
    fun _ _ _ _ h => step_withFetchWord h, eventOnly_iff⟩

/-! ## What an operation leaves of the environment (R8, R9, R63, R240, R260) -/

/-- All steps together are a closed set: a frame that every step keeps needs no other. -/
theorem stepsClosed_true : StepsClosed fun _ => True := by simp [StepsClosed]

/-- What no operation changes: the inputs, the schedule, whose turn it is, and what the device has seen (log 35). -/
def State.sameInputs (s t : State) : Prop :=
  t.allocator = s.allocator ∧ t.source = s.source ∧ t.destinationOk = s.destinationOk ∧ t.hasTimeout = s.hasTimeout ∧
    t.schedule = s.schedule ∧ t.caller = s.caller ∧ t.seenWord = s.seenWord ∧ t.seenBytes = s.seenBytes

theorem State.sameInputs.trans {s t u : State} (h : s.sameInputs t) (h' : t.sameInputs u) : s.sameInputs u := by
  obtain ⟨h1, h2, h3, h4, h5, h6, h7, h8⟩ := h
  unfold State.sameInputs at h' ⊢
  rwa [h1, h2, h3, h4, h5, h6, h7, h8] at h'

theorem went_sameInputs {m : Micro} {t t' : Task} {s s' : State} (h : Went t s m t' s') : s.sameInputs s' := by
  cases h with
  | read r => rcases regRead_state r s with e | e <;> simp [State.sameInputs, e]
  | _ => simp [State.sameInputs]

theorem exec_sameInputs {i : Instr} {s t : State} (h : exec i s = .next t) : s.sameInputs t :=
  exec_frame h (A := fun _ => True) stepsClosed_true s.sameInputs (fun _ _ => trivial)
    (fun _ _ _ _ _ _ hs hm => hs.trans (went_sameInputs (micro_went hm).2)) (fun _ _ => by simp [State.sameInputs])
    (by simp [State.sameInputs]) (fun _ _ _ hs => hs) (fun _ _ _ hs => hs) (fun _ hs => hs)

/-- The step is one of a session reset (R282), which no operation of the opcode table makes. -/
def ofSessionReset : Micro → Bool
  | .resetDirection _ _ | .resetReg _ _ => true
  | _ => false

theorem stepsOf_ofSessionReset (i : Instr) (s : State) : ∀ m ∈ stepsOf i s, ofSessionReset m = false := by
  cases i <;>
    simp [stepsOf, setOffsetSteps, abortSteps, resetAllSteps, resetRegs, completionSteps, ofSessionReset]

theorem ofSessionReset_closed : StepsClosed fun m => ofSessionReset m = false := by simp [StepsClosed, ofSessionReset]

/-- A turn of an operation's steps writes no agent's record: only its end does (R240, R254). -/
theorem turn_records {n : Nat} {tk : Task} {s : State} (htk : ∀ m ∈ tk.todo, ofSessionReset m = false) :
    (∀ r dst u, runMicros n tk s = .done r dst u → (∀ k, u.callerOf k = s.callerOf k) ∧ u.handler = s.handler) ∧
    (∀ tk' u, runMicros n tk s = .paused tk' u → (∀ k, u.callerOf k = s.callerOf k) ∧ u.handler = s.handler) := by
  refine turn_frame ofSessionReset_closed (fun u => (∀ k, u.callerOf k = s.callerOf k) ∧ u.handler = s.handler)
    (fun m t u t' u' hm hu hgo => ⟨fun k => ?_, ?_⟩) n tk s htk ⟨fun _ => rfl, rfl⟩
  · rcases went_callerOf (micro_went hgo).2 k with e | ⟨⟨d, j, rfl, _⟩, _⟩
    · rw [e, hu.1 k]
    · cases hm
  · rw [went_handler (micro_went hgo).2, hu.2]

/-- An operation writes the record of no caller but the one whose turn it is, and begins no reaction but its own line's. -/
theorem exec_records {i : Instr} {s t : State} (h : exec i s = .next t) :
    (∀ k, k ≠ s.caller → t.callerOf k = s.callerOf k) ∧ (∀ l, i ≠ eventOf l → t.handler.get l = s.handler.get l) := by
  rcases exec_next h with ⟨d, rfl, rfl⟩ | ⟨_, _, rfl⟩ | ⟨fin, _, _, h⟩ | ⟨l, rfl, _, _, h⟩
  · exact ⟨fun _ _ => rfl, fun _ _ => rfl⟩
  · exact ⟨fun k hk => returns_callerOf_other _ _ _ _ _ hk, fun _ _ => rfl⟩
  · have key := turn_records (n := turnLength s) (tk := taskOf i s fin) (s := s) (stepsOf_ofSessionReset i s)
    rcases runCallerTask_next h with ⟨r, dst, u, hu, rfl⟩ | ⟨tk', u, hu, rfl⟩
    · obtain ⟨hc, hh⟩ := key.1 _ _ _ hu
      exact ⟨fun k hk => by rw [returns_callerOf_other _ _ _ _ _ hk, hc], fun l _ => by simp [hh]⟩
    · obtain ⟨hc, hh⟩ := key.2 _ _ hu
      exact ⟨fun k hk => by rw [pauses_callerOf_other _ _ _ _ hk, hc], fun l _ => by simp [hh]⟩
  · have key := turn_records (n := turnLength s) (tk := newTask (stepsOf (eventOf l) s) (.const .ok)) (s := s)
      (stepsOf_ofSessionReset (eventOf l) s)
    rcases runHandlerTask_next h with ⟨r, dst, u, hu, rfl⟩ | ⟨tk', u, hu, rfl⟩
    · obtain ⟨hc, hh⟩ := key.1 _ _ _ hu
      exact ⟨fun k _ => by simp [hc], fun l' hl => by simp [hh, show l' ≠ l from fun e => hl (e ▸ rfl)]⟩
    · obtain ⟨hc, hh⟩ := key.2 _ _ hu
      exact ⟨fun k _ => by simp [hc], fun l' hl => by simp [hh, show l' ≠ l from fun e => hl (e ▸ rfl)]⟩

/-- The step, or one it puts before the rest of its operation, may close the open block of `d` (R263; log 11). -/
def mayCloseBlock (d : Dir) : Micro → Bool
  | .rmw d' _ | .putReady d' _ | .complete d' _ | .release d' | .resetDirection d' _ => decide (d' = d)
  | .copyIn _ => decide (Dir.write = d)
  | _ => false

theorem mayCloseBlock_closed (d : Dir) : StepsClosed fun m => mayCloseBlock d m = false := by
  refine ⟨by simp [mayCloseBlock], fun n h => ?_, fun d' k h => ?_, by simp [mayCloseBlock]⟩
  · exact ⟨by simpa [mayCloseBlock] using h, fun _ => rfl⟩
  · exact ⟨by simpa [mayCloseBlock] using h, rfl⟩

/-- An operation that does not belong to `d` has no step that closes a block of `d`. -/
theorem stepsOf_mayCloseBlock {i : Instr} {d : Dir} (s : State) (h : directionOf i ≠ some d) :
    ∀ m ∈ stepsOf i s, mayCloseBlock d m = false := by
  cases i <;>
    simp_all [directionOf, stepsOf, setOffsetSteps, abortSteps, resetAllSteps, resetRegs, completionSteps, mayCloseBlock]

/-- Freeing a buffer leaves the direction's open block, or ends it (R173; log 21); that of the other direction it leaves. -/
theorem freeBuffer_opened_get (d d' : Dir) (s : State) :
    (freeBuffer d s).opened.get d' = s.opened.get d' ∨ (freeBuffer d s).opened.get d' = none ∧ d = d' := by
  by_cases hd : d' = d
  · subst hd
    cases ho : s.opened.get d' with
    | none => simp [ho]
    | some o => cases hf : o.forTransfer <;> simp [ho, hf, Option.filter]
  · exact .inl (by simp [hd])

/-- A step opens no block, and closes one only where it is a step that may. -/
theorem went_opened {m : Micro} {t t' : Task} {s s' : State} (h : Went t s m t' s') (d : Dir) :
    s'.opened.get d = s.opened.get d ∨ s'.opened.get d = none ∧ mayCloseBlock d m = true := by
  have closes : ∀ d', (s.opened.set d' none).get d = s.opened.get d ∨ (s.opened.set d' none).get d = none ∧ d' = d := by
    intro d'
    by_cases hd : d = d'
    · subst hd; simp
    · exact .inl (by simp [hd])
  cases h with
  | read r => rcases regRead_state r s with e | e <;> simp [e]
  | rmw d' u => simpa [mayCloseBlock] using closes d'
  | putReady d' id =>
    rcases closeBlock_cases d' id s with ⟨_, e⟩ | ⟨_, e⟩
    · simpa [mayCloseBlock, e] using closes d'
    · exact .inl (by rw [e])
  | release d' => simpa only [mayCloseBlock, decide_eq_true_eq] using freeBuffer_opened_get d' d s
  | resetDirection d' k =>
    rw [resetDirection_opened]
    split
    · exact .inl rfl
    · simpa only [mayCloseBlock, decide_eq_true_eq, freeBuffer_opened] using freeBuffer_opened_get d' d s
  | _ => exact .inl (by simp)

/-- An operation opens no block, and closes one only of its own direction (log 11). -/
theorem exec_opened {i : Instr} {s t : State} (h : exec i s = .next t) (d : Dir) :
    t.opened.get d = s.opened.get d ∨ t.opened.get d = none ∧ directionOf i = some d := by
  by_cases hd : directionOf i = some d
  · have key := exec_frame h (A := fun _ => True) stepsClosed_true
      (fun u => u.opened.get d = s.opened.get d ∨ u.opened.get d = none) (fun _ _ => trivial)
      (fun m _ u _ u' _ hu hm => ?_) (fun _ _ => .inl rfl) (.inl rfl) (fun _ _ _ hu => hu) (fun _ _ _ hu => hu) (fun _ hu => hu)
    · exact key.imp_right fun e => ⟨e, hd⟩
    · rcases went_opened (micro_went hm).2 d with e | ⟨e, _⟩
      · rwa [e]
      · exact .inr e
  · refine .inl (exec_frame h (mayCloseBlock_closed d) (fun u => u.opened.get d = s.opened.get d) (stepsOf_mayCloseBlock s hd)
      (fun m _ u _ u' hA hu hm => ?_) (fun _ _ => rfl) rfl (fun _ _ _ hu => hu) (fun _ _ _ hu => hu) (fun _ hu => hu))
    rcases went_opened (micro_went hm).2 d with e | ⟨_, e⟩
    · rw [e, hu]
    · rw [hA] at e; cases e

/-- Settles O52: the inputs and the open blocks by the frames of a turn's steps, the records by how a turn ends. -/
theorem environmentFrame : Obligations.EnvironmentFrame := by
  intro i s t h
  obtain ⟨h1, h2, h3, h4, h5, h6, h7, h8⟩ := exec_sameInputs h
  obtain ⟨hc, hh⟩ := exec_records h
  exact ⟨h1, h2, h3, h4, h5, h6, h7, h8, exec_opened h, hc, hh⟩

/-! ## The directions are independent (R6, R176, R234) -/

/-- The direction a register belongs to (R6). -/
def regDir : SReg → Dir
  | .readBufferReady | .readBufferAddr | .readBufferOffset | .readBufferSize | .readTransferDone => .read
  | .writeBufferReady | .writeBufferAddr | .writeBufferOffset | .writeBufferSize | .writeTransferDone => .write

@[simp] theorem regDir_readyReg (d : Dir) : regDir (readyReg d) = d := by cases d <;> rfl
@[simp] theorem regDir_addrReg (d : Dir) : regDir (addrReg d) = d := by cases d <;> rfl
@[simp] theorem regDir_offsetReg (d : Dir) : regDir (offsetReg d) = d := by cases d <;> rfl
@[simp] theorem regDir_sizeReg (d : Dir) : regDir (sizeReg d) = d := by cases d <;> rfl
@[simp] theorem regDir_doneReg (d : Dir) : regDir (doneReg d) = d := by cases d <;> rfl

/-- `sameDirection` from its fields, the five registers taken together as those of `d` (R6). -/
theorem sameDirection_of {d : Dir} {s t : State} (hslot : t.slot.get d = s.slot.get d) (hbuf : t.buf.get d = s.buf.get d)
    (hhandle : t.handle.get d = s.handle.get d) (hopened : t.opened.get d = s.opened.get d) (hgate : t.gate.get d = s.gate.get d)
    (hwaiter : t.waiter.get d = s.waiter.get d) (hreg : ∀ r, regDir r = d → t.reg r = s.reg r)
    (hpending : t.pending.get (completionLine d) = s.pending.get (completionLine d)) : sameDirection d s t :=
  ⟨hslot, hbuf, hhandle, hopened, hgate, hwaiter, hreg _ (by simp), hreg _ (by simp), hreg _ (by simp), hreg _ (by simp),
    hreg _ (by simp), hpending⟩

theorem sameDirection.trans {d : Dir} {s t u : State} (h : sameDirection d s t) (h' : sameDirection d t u) :
    sameDirection d s u := by
  obtain ⟨h1, h2, h3, h4, h5, h6, h7, h8, h9, h10, h11, h12⟩ := h
  unfold sameDirection at h' ⊢
  rwa [h1, h2, h3, h4, h5, h6, h7, h8, h9, h10, h11, h12] at h'

/-- The step, and each it puts before the rest of its operation, acts on direction `d` alone. Reads and the copies out of a buffer change
neither direction. -/
def actsOn (d : Dir) : Micro → Bool
  | .read _ | .enter | .loadBytes _ | .deliver _ => true
  | .write (.s r) _ => decide (regDir r = d)
  | .rmw d' _ | .putReady d' _ | .claim d' _ | .giveHandle d' _ | .checkPublished d' _ | .awaitCompletion d' | .waitEnter d' _
  | .waitBlock d' | .complete d' _ | .release d' | .unwait d' | .signal d' => decide (d' = d)
  | .copyIn _ | .storeBytes _ _ => decide (Dir.write = d)
  | .ack l => decide (l = completionLine d)
  | .write (.d _) _ | .write (.a _) _ | .resetDirection _ _ | .resetReg _ _ => false

theorem actsOn_closed (d : Dir) : StepsClosed fun m => actsOn d m = true := by
  refine ⟨fun d' len v h => ?_, fun n h => ?_, fun d' k h => ⟨h, rfl⟩, fun _ _ _ => rfl⟩
  · simpa [actsOn] using h
  · exact ⟨h, fun _ => h⟩

/-- An operation of `d` has only steps that act on `d` (R6). -/
theorem stepsOf_actsOn {i : Instr} {d : Dir} (s : State) (h : directionOf i = some d) : ∀ m ∈ stepsOf i s, actsOn d m = true := by
  cases i <;> cases h <;> simp [stepsOf, setOffsetSteps, abortSteps, completionSteps, actsOn, regDir, offsetReg]

theorem completionLine_inj (d d' : Dir) : completionLine d = completionLine d' ↔ d = d' := by
  cases d <;> cases d' <;> decide

/-- A step that acts on one direction leaves the other as it is. -/
theorem went_sameDirection {m : Micro} {t t' : Task} {s s' : State} {d d' : Dir} (h : Went t s m t' s') (hm : actsOn d m = true)
    (hd : d' ≠ d) : sameDirection d' s s' := by
  have other : ∀ {r r'}, regDir r = d → regDir r' = d' → r' ≠ r := by rintro r _ h h' rfl; exact hd (h' ▸ h)
  cases h with
  | read r => rcases regRead_state r s with e | e <;> simp [sameDirection, e]
  | write r v =>
    have hr : regDir r = d := by simpa [actsOn] using hm
    exact sameDirection_of rfl rfl rfl rfl rfl rfl (fun r' h' => State.setReg_reg_other _ _ _ _ (other hr h')) rfl
  | rmw d'' u =>
    obtain rfl : d'' = d := by simpa [actsOn] using hm
    refine sameDirection_of (by simp) (by simp) (by simp) (by simp [hd]) (by simp) (by simp) (fun r' h' => ?_) (by simp)
    have hr := other (regDir_readyReg d'') h'
    rw [updateReady_reg_other _ _ _ _ hr, closeOpen_reg_other _ _ _ hr]
  | putReady d'' id =>
    obtain rfl : d'' = d := by simpa [actsOn] using hm
    exact sameDirection_of (by simp) (by simp) (by simp) (closeBlock_opened_other _ _ _ _ hd) (by simp) (by simp)
      (fun r' h' => closeBlock_reg_other _ _ _ _ (other (regDir_readyReg d'') h')) (by simp)
  | ack l =>
    obtain rfl : l = completionLine d := by simpa [actsOn] using hm
    simp [sameDirection, completionLine_inj, hd]
  | storeBytes i bs b buf inside =>
    obtain rfl : Dir.write = d := by simpa [actsOn] using hm
    simp [sameDirection, hd]
  | ackWrite | resetDirection | resetReg => cases hm
  | claim d'' | giveHandle d'' | awaitCompletion d'' | waitEnter d'' | waitBlock d'' | release d'' | unwait d'' | signal d'' =>
    obtain rfl : d'' = d := by simpa [actsOn] using hm
    simp [sameDirection, hd]
  | _ => simp [sameDirection]

/-- Settles O54: all steps of an operation of `d` act on `d` alone. -/
theorem directionsAreIndependent : Obligations.DirectionsAreIndependent := by
  intro i d d' s t hi hd h
  exact exec_frame h (actsOn_closed d) (sameDirection d' s) (stepsOf_actsOn s hi)
    (fun m _ u _ u' hA hu hm => hu.trans (went_sameDirection (micro_went hm).2 hA hd))
    (fun d'' e => by
      subst e
      obtain rfl : d'' = d := Option.some.inj hi
      simp [sameDirection, hd])
    (sameDirection_of rfl rfl rfl rfl rfl rfl (fun _ _ => rfl) rfl) (fun _ _ _ hu => hu) (fun _ _ _ hu => hu) (fun _ hu => hu)

/-! ## The device (R7, R77, R117) -/

/-- What the device may access (R7 duty iii, R77): the offered bytes, inside the published range and inside the live buffer. -/
theorem deviceMayAccess_iff (s : State) (d : Dir) (b : Buffer) (off n : Nat) :
    deviceMayAccess s d b off n = true ↔ s.ready d = true ∧ off + n ≤ (s.reg (sizeReg d)).toNat ∧
      b.devAddr.toNat ≤ (s.reg (addrReg d)).toNat + off ∧ deviceIndex s d b off + n ≤ b.len := by
  simp only [deviceMayAccess, deviceIndex, Bool.and_eq_true, decide_eq_true_eq, and_assoc]
  exact and_congr_right fun _ => and_congr_right fun _ => and_congr_right fun _ => by omega

theorem deviceFill_next {off : Nat} {bytes : List Byte} {s t : State} (h : deviceFill off bytes s = .next t) :
    ∃ b, s.buf.get .read = some b ∧ deviceMayAccess s .read b off bytes.length = true ∧
      t = s.setBuf .read (some (b.store (deviceIndex s .read b off) bytes)) := by
  simp only [deviceFill] at h
  split at h
  · cases h
  · next b hb =>
    split at h
    · next hm => cases h; exact ⟨b, hb, hm, rfl⟩
    · cases h

theorem deviceFetch_next {off n : Nat} {s t : State} (h : deviceFetch off n s = .next t) :
    ∃ b, s.buf.get .write = some b ∧ deviceMayAccess s .write b off n = true ∧
      t = { s with seenBytes := b.bytes (deviceIndex s .write b off) n } := by
  simp only [deviceFetch] at h
  split at h
  · cases h
  · next b hb =>
    split at h
    · next hm => cases h; exact ⟨b, hb, hm, rfl⟩
    · cases h

/-- The bytes just stored are read back (R62). -/
theorem memRead_store {s : State} {d : Dir} {b : Buffer} {i : Nat} {bs : List Byte} (hi : i + bs.length ≤ b.len) :
    memRead (s.setBuf d (some (b.store i bs))) d i bs.length = .ok bs := by
  simp [memRead, hi, Buffer.bytes_store_self]

/-- A store changes no byte of buffer memory outside its range (R62). -/
theorem bufferByte_store_outside {s : State} {d : Dir} {b : Buffer} {i a : Nat} {bs : List Byte} (hb : s.buf.get d = some b)
    (ha : a < b.hostAddr + i ∨ b.hostAddr + i + bs.length ≤ a) :
    (s.setBuf d (some (b.store i bs))).bufferByte d a = s.bufferByte d a := by
  simp only [State.bufferByte, State.setBuf_buf, PerDir.get_set_same, hb, Buffer.store_hostAddr, Buffer.store_len]
  refine if_ctx_congr Iff.rfl (fun hin => ?_) fun _ => rfl
  rw [Buffer.byte_store_outside b i (a - b.hostAddr) bs (by omega)]

/-- What no move of the device changes (R7). -/
theorem deviceMove_frame {m : DeviceMove} {s t : State} (h : deviceMove m s = .next t) :
    t.slot = s.slot ∧ t.gate = s.gate ∧ t.waiter = s.waiter ∧ t.handle = s.handle ∧ t.opened = s.opened ∧ t.buf.w = s.buf.w := by
  cases m with
  | drive r v => cases h; simp
  | raise l => cases h; simp
  | readRegister r => cases h; rcases regRead_state r s with e | e <;> simp [e]
  | fill off bytes => obtain ⟨b, _, _, rfl⟩ := deviceFill_next h; simp [PerDir.set]
  | fetch off n => obtain ⟨b, _, _, rfl⟩ := deviceFetch_next h; simp

/-- The status words, the pending marks, the read buffer and the device's observations change only by the moves that say so (R7, R117;
log 35). -/
theorem deviceMove_changes {m : DeviceMove} {s t : State} (h : deviceMove m s = .next t) :
    ((∀ r v, m ≠ .drive r v) → t.status = s.status) ∧ (∀ l, t.pending.get l ≠ s.pending.get l → m = .raise l) ∧
      ((∀ off bytes, m ≠ .fill off bytes) → t.buf.r = s.buf.r) ∧ ((∀ r, m ≠ .readRegister r) → t.seenWord = s.seenWord) ∧
      ((∀ off n, m ≠ .fetch off n) → t.seenBytes = s.seenBytes) := by
  cases m with
  | drive r v => cases h; simp
  | raise l =>
    cases h
    refine ⟨by simp, fun l' hl => ?_, by simp, by simp, by simp⟩
    by_cases e : l' = l
    · rw [e]
    · exact absurd (PerLine.get_set_other _ _ _ _ e) hl
  | readRegister r => cases h; rcases regRead_state r s with e | e <;> simp [e]
  | fill off bytes => obtain ⟨b, _, _, rfl⟩ := deviceFill_next h; simp
  | fetch off n => obtain ⟨b, _, _, rfl⟩ := deviceFetch_next h; simp

/-- The device sees what `RegRead` gives (R117). -/
theorem deviceMove_readRegister {r : Reg} {s t : State} (h : deviceMove (.readRegister r) s = .next t) :
    t.seenWord = some (regRead r s).1 := by cases h; rfl

/-- Settles O55: the frame of each move, and for a fill and a fetch the guard of `deviceMayAccess`. -/
theorem deviceFrame : Obligations.DeviceFrame := by
  intro m s t h
  obtain ⟨hcallers, hhandler⟩ := deviceMove_agents h
  obtain ⟨hslot, hgate, hwaiter, hhandle, hopened, hbufw⟩ := deviceMove_frame h
  obtain ⟨hstatus, hpending, hbufr, hword, hbytes⟩ := deviceMove_changes h
  refine ⟨deviceMove_csr h, hslot, hgate, hwaiter, hhandler, hcallers, hhandle, hopened, hbufw, hstatus, hpending, hbufr,
    fun r e => deviceMove_readRegister (e ▸ h), fun r e => deviceMove_readRegister (e ▸ h),
    fun r e => deviceMove_readRegister (e ▸ h), hword, hbytes, ?_, ?_⟩
  · rintro off bytes rfl
    obtain ⟨b, hb, hmay, rfl⟩ := deviceFill_next h
    obtain ⟨hready, hsize, hlow, hhigh⟩ := (deviceMayAccess_iff s .read b off bytes.length).1 hmay
    exact ⟨hready, hsize, b, hb, hlow, hhigh, memRead_store hhigh, fun a ha => bufferByte_store_outside hb ha⟩
  · rintro off n rfl
    obtain ⟨b, hb, hmay, rfl⟩ := deviceFetch_next h
    obtain ⟨hready, hsize, hlow, hhigh⟩ := (deviceMayAccess_iff s .write b off n).1 hmay
    exact ⟨hready, hsize, b, hb, hlow, hhigh, rfl⟩

end Sys2Proof.Machine
end

section
/-! Proofs for 10_state.md: the creation state (R47), the slots (R40), the invariants of R46 under every step of the machine, and
what each operation may change: registers, control state and flags (R49). -/

namespace Sys2Proof.Machine

/-! ## Creation (R47, R280) -/

/-- Settles O1: each clause is read off `State.reset`, whose callers, reactions and waiter marks are none. -/
theorem creationState : Obligations.CreationState := by
  have hdir : ∀ d, State.reset.slot.get d = .unallocated ∧ State.reset.buf.get d = none ∧ State.reset.gate.get d = .pending ∧
      State.reset.waiter.get d = none ∧ State.reset.handle.get d = none ∧ State.reset.opened.get d = none := by
    intro d; cases d <;> exact ⟨rfl, rfl, rfl, rfl, rfl, rfl⟩
  refine ⟨hdir, fun r => by cases r <;> rfl, fun l => by cases l <;> rfl, rfl, rfl, fun d k h => ?_, fun k t h => ?_,
    fun l t h => ?_⟩
  · obtain ⟨_, _, _, hwaiter, _⟩ := hdir d
    rw [hwaiter] at h; cases h
  · cases h
  · cases l <;> cases h

/-! ## Well-formed slots, buffers and handles (R41, R46, R62, R175) -/

/-- What `directionWf` says, field by field. -/
theorem State.directionWf_iff (s : State) (d : Dir) :
    s.directionWf d = true ↔ (s.slot.get d = .unallocated ↔ s.buf.get d = none) ∧ (∀ b, s.buf.get d = some b → b.wf = true) ∧
      ∀ h, s.handle.get d = some h →
        s.slot.get d ≠ .unallocated ∧ (h.awaited = true → s.slot.get d = .awaitingCompletion) := by
  have imp : ∀ (b : Bool) (p : Prop), b = false ∨ p ↔ (b = true → p) := by intro b p; cases b <;> simp
  simp only [State.directionWf, Bool.and_eq_true, decide_eq_true_eq, and_assoc, Option.all_eq_true, Bool.or_eq_true,
    Bool.not_eq_true', imp]

/-- `directionWf` speaks of the direction's slot, buffer and handle only. -/
theorem State.directionWf_congr {s s' : State} {d : Dir} (hs : s.directionWf d = true) (hslot : s'.slot.get d = s.slot.get d)
    (hbuf : s'.buf.get d = s.buf.get d) (hhandle : s'.handle.get d = s.handle.get d) : s'.directionWf d = true := by
  unfold State.directionWf at hs ⊢
  rwa [hslot, hbuf, hhandle]

theorem State.wf_iff (s : State) : s.wf = true ↔ (∀ d, s.directionWf d = true) ∧ risingKeys s.callers = true := by
  simp only [State.wf, Bool.and_eq_true]
  exact and_congr_left' ⟨fun h d => by cases d; exacts [h.1, h.2], fun h => ⟨h _, h _⟩⟩

/-- The buffer BEGIN_TRANSFER installs is well formed: its length is a nonzero word (R170, D10). -/
theorem freshBuffer_wf {len dev : Word} {host : Nat} {s : State} (h : len ≠ 0) : (freshBuffer len dev host s).wf = true := by
  have h0 : len.toNat ≠ 0 := fun e => h (BitVec.eq_of_toNat_eq e)
  have hlt := len.isLt
  rw [Buffer.wf_iff]
  exact ⟨Nat.pos_of_ne_zero h0, by simp only [freshBuffer, Config.lenMax]; omega, rfl, rfl⟩

/-- The mark of a returned WAIT.d is new only where the slot awaits completion (R172; log 15). -/
theorem noteWaited_some {d : Dir} {k : Option Nat} {s : State} {h' : Handle} (h : noteWaited d k s = some h') :
    ∃ h, s.handle.get d = some h ∧ (h'.awaited = true → h.awaited = true ∨ s.slot.get d = .awaitingCompletion) := by
  obtain ⟨h₀, hh, rfl⟩ := Option.map_eq_some_iff.1 h
  refine ⟨h₀, hh, fun ha => ?_⟩
  simp only [Bool.or_eq_true, Bool.and_eq_true, decide_eq_true_eq] at ha
  exact ha.imp_right And.left

/-- A store inside the buffer of `d` keeps the direction well formed, and the other direction is not touched (R62). -/
theorem directionWf_store {s : State} {d d' : Dir} {b : Buffer} {i : Nat} {bs : List Byte} (hs : s.directionWf d' = true)
    (hb : s.buf.get d = some b) (hi : i + bs.length ≤ b.len) :
    (s.setBuf d (some (b.store i bs))).directionWf d' = true := by
  by_cases hd : d' = d
  · subst hd
    rw [State.directionWf_iff] at hs ⊢
    obtain ⟨hslot, hbuf, hhandle⟩ := hs
    refine ⟨by simpa [hb] using hslot, fun b' h => ?_, by simpa using hhandle⟩
    obtain rfl : b.store i bs = b' := by simpa using h
    exact Buffer.wf_store b i bs (hbuf b hb) hi
  · exact State.directionWf_congr hs (by simp) (by simp [hd]) (by simp)

/-- Freeing a buffer leaves its direction with nothing to be ill formed (R173). -/
theorem directionWf_freeBuffer {s : State} {d d' : Dir} (hs : s.directionWf d' = true) :
    (freeBuffer d s).directionWf d' = true := by
  by_cases hd : d' = d
  · subst hd; rw [State.directionWf_iff]; simp
  · exact State.directionWf_congr hs (by simp [hd]) (by simp [hd]) (by simp [hd])

/-- Every step keeps both directions well formed. -/
theorem went_directionWf {m : Micro} {t t' : Task} {s s' : State} {d : Dir} (h : Went t s m t' s') (hs : s.directionWf d = true) :
    s'.directionWf d = true := by
  cases h with
  | read r => rcases regRead_state r s with e | e <;> rw [e] <;> exact hs
  | claim d' len dev host slot pos =>
    by_cases hd : d = d'
    · subst hd
      rw [State.directionWf_iff]
      simp [freshBuffer_wf pos]
    · exact State.directionWf_congr hs (by simp [hd]) (by simp [hd]) (by simp [hd])
  | giveHandle d' k slot =>
    by_cases hd : d = d'
    · subst hd
      rw [State.directionWf_iff] at hs ⊢
      obtain ⟨hslot, hbuf, _⟩ := hs
      refine ⟨by simpa using hslot, by simpa using hbuf, fun h e => ?_⟩
      obtain rfl : Handle.mk (sessionOf k) false = h := by simpa using e
      exact ⟨slot, nofun⟩
    · exact State.directionWf_congr hs (by simp) (by simp) (by simp [hd])
  | awaitCompletion d' slot =>
    by_cases hd : d = d'
    · subst hd
      rw [State.directionWf_iff] at hs ⊢
      obtain ⟨hslot, hbuf, _⟩ := hs
      exact ⟨by simpa [slot] using hslot, by simpa using hbuf, fun h _ => by simp⟩
    · exact State.directionWf_congr hs (by simp [hd]) (by simp) (by simp)
  | waitBlock d' gate =>
    by_cases hd : d = d'
    · subst hd
      rw [State.directionWf_iff] at hs ⊢
      obtain ⟨hslot, hbuf, hhandle⟩ := hs
      refine ⟨by simpa using hslot, by simpa using hbuf, fun h e => ?_⟩
      obtain ⟨h₀, hh, hawaited⟩ := noteWaited_some (by simpa using e)
      obtain ⟨hne, haw⟩ := hhandle h₀ hh
      exact ⟨hne, fun ha => (hawaited ha).elim haw id⟩
    · exact State.directionWf_congr hs (by simp) (by simp) (by simp [hd])
  | storeBytes i bs b buf inside =>
    exact directionWf_store hs buf (by split <;> simpa [raceBytes] using inside)
  | release d' slot => exact directionWf_freeBuffer hs
  | resetDirection d' k =>
    by_cases hu : s.slot.get d' = .unallocated
    · refine State.directionWf_congr hs ?_ (by rw [resetDirection_buf, if_pos hu]) (by rw [resetDirection_handle, if_pos hu])
      rw [resetDirection_slot, ← hu, PerDir.set_get]
    · refine State.directionWf_congr (directionWf_freeBuffer (d := d') hs) (by simp) ?_ ?_
      · rw [resetDirection_buf, if_neg hu, freeBuffer_buf]
      · rw [resetDirection_handle, if_neg hu, freeBuffer_handle]
  | _ => exact State.directionWf_congr hs (by simp) (by simp) (by simp)

theorem abandonWait_risingKeys {d : Dir} {s : State} (hs : risingKeys s.callers = true) :
    risingKeys (abandonWait d s).callers = true := by
  simp only [abandonWait]
  split
  · exact hs
  · split
    · exact risingKeys_set _ _ _ hs
    · exact hs

/-- The callers' records stay in canonical order: only a session reset's step writes one (R282). -/
theorem went_risingKeys {m : Micro} {t t' : Task} {s s' : State} (h : Went t s m t' s') (hs : risingKeys s.callers = true) :
    risingKeys s'.callers = true := by
  cases h with
  | read r => rcases regRead_state r s with e | e <;> rw [e] <;> exact hs
  | resetDirection d k =>
    rw [resetDirection, State.setWaiter_callers]
    exact abandonWait_risingKeys (by rw [State.setGate_callers]; split <;> exact hs)
  | _ => simpa using hs

theorem went_wf {m : Micro} {t t' : Task} {s s' : State} (h : Went t s m t' s') (hs : s.wf = true) : s'.wf = true := by
  rw [State.wf_iff] at hs ⊢
  obtain ⟨hdir, hcallers⟩ := hs
  exact ⟨fun d => went_directionWf h (hdir d), went_risingKeys h hcallers⟩

/-- `wf` speaks of the slots, buffers, handles and callers only. -/
theorem State.wf_congr {s s' : State} (hs : s.wf = true) (hslot : s'.slot = s.slot) (hbuf : s'.buf = s.buf)
    (hhandle : s'.handle = s.handle) (hcallers : s'.callers = s.callers) : s'.wf = true := by
  unfold State.wf State.directionWf at hs ⊢
  rwa [hslot, hbuf, hhandle, hcallers]

/-- A store inside the buffer of `d` keeps the state well formed. -/
theorem wf_store {s : State} {d : Dir} {b : Buffer} {i : Nat} {bs : List Byte} (hs : s.wf = true) (hb : s.buf.get d = some b)
    (hi : i + bs.length ≤ b.len) : (s.setBuf d (some (b.store i bs))).wf = true := by
  rw [State.wf_iff] at hs ⊢
  exact hs.imp_left fun hdir d' => directionWf_store (hdir d') hb hi

/-- Opening a block changes only registers, open blocks and the draws (log 11). -/
theorem openedTask_wf {t t' : Task} {s s' : State} (h : openedTask t s = some (t', s')) (hs : s.wf = true) : s'.wf = true := by
  obtain ⟨_, d, u, rest, _, _, rfl⟩ := openedTask_some h
  exact State.wf_congr hs (by simp) (by simp) (by simp) (by simp)

/-- A part of a copy is a store inside the buffer, or a load (R67). -/
theorem partTask_wf {n : Nat} {t t' : Task} {s s' : State} (h : partTask n t s = .ok (some (t', s'))) (hs : s.wf = true) :
    s'.wf = true := by
  rcases (partTask_some h).2 with ⟨i, bs, rest, _, hp, _⟩ | ⟨_, _, _, _, _, rfl, _⟩
  · obtain ⟨b, hb, hi, rfl⟩ := storePart_ok hp
    exact State.wf_congr (wf_store hs hb (by split <;> simpa [raceBytes] using hi)) rfl rfl rfl rfl
  · exact hs

theorem PerDir.ext_fields {α : Type} {p q : PerDir α} (hr : p.r = q.r) (hw : p.w = q.w) : p = q := by
  cases p; cases q; simp_all

theorem deviceMove_wf {m : DeviceMove} {s t : State} (h : deviceMove m s = .next t) (hs : s.wf = true) : t.wf = true := by
  obtain ⟨hcallers, _⟩ := deviceMove_agents h
  obtain ⟨hslot, _, _, hhandle, _, hbufw⟩ := deviceMove_frame h
  cases m with
  | fill off bytes =>
    obtain ⟨b, hb, hmay, rfl⟩ := deviceFill_next h
    obtain ⟨_, _, _, hinside⟩ := (deviceMayAccess_iff s .read b off bytes.length).1 hmay
    exact wf_store hs hb hinside
  | _ =>
    obtain ⟨_, _, hbufr, _⟩ := deviceMove_changes h
    exact State.wf_congr hs hslot (PerDir.ext_fields (hbufr (by simp)) hbufw) hhandle hcallers

/-- Well-formedness is kept by everything that can happen, whatever the steps in progress are. -/
theorem keeps_wf : Keeps (fun _ => true) fun s => s.wf = true where
  closed := by simp [StepsClosed]
  oneStep _ hs hm := went_wf (micro_went hm).2 hs
  opening _ hs ho := ⟨openedTask_wf ho hs, by simp⟩
  part _ hs hp := ⟨partTask_wf hp hs, by simp⟩
  device hs hm := deviceMove_wf hm hs
  signal _ hs := hs
  record k x hs := by
    rw [State.wf_iff] at hs ⊢
    exact hs.imp_right (risingKeys_set k x _)
  reaction _ _ hs := hs
  inputs _ _ _ _ _ _ hs := hs

/-- Settles O58: `keeps_wf` over the machine's moves. -/
theorem stepKeepsWellFormed : Obligations.StepKeepsWellFormed := by
  intro s t hs h
  have hall : ∀ u : State, u.allSteps fun _ => true := fun u => ⟨by simp, by simp⟩
  refine (keeps_wf.machineStep hs (hall s) (fun rest _ _ i k _ _ he => ?_) (by simp) h).1
  exact keeps_wf.exec (s := { s with schedule := rest, caller := k }) (by simp) hs (hall s) he

/-! ## Waiter marks stand for blocked callers (R42, R46, R190, R257, R282) -/

/-- A caller's steps clear the mark of one direction at most. -/
theorem clearsMark_unique {d d' : Dir} {todo : List Micro} (h : clearsMark d todo = true) (h' : clearsMark d' todo = true) :
    d = d' := by
  induction todo with
  | nil => cases h
  | cons m rest ih =>
    cases m with
    | waitBlock e | unwait e =>
      simp only [clearsMark, decide_eq_true_eq] at h h'
      exact h.symm.trans h'
    | enter | rmw | putReady => exact ih h h'
    | _ => cases h

/-- The rest of steps in order is in order. -/
theorem waitsInOrder_tail {k : Nat} {m : Micro} {rest : List Micro} (h : waitsInOrder k (m :: rest) = true) :
    waitsInOrder k rest = true := by
  cases m <;> simp_all [waitsInOrder]

theorem waitsInOrder_waitEnter {k j : Nat} {d : Dir} {rest : List Micro} (h : waitsInOrder k (.waitEnter d j :: rest) = true) :
    j = k ∧ clearsMark d rest = true := by
  simp only [waitsInOrder, Bool.and_eq_true, decide_eq_true_eq] at h
  obtain ⟨⟨hj, hhead⟩, _⟩ := h
  obtain ⟨rest', rfl⟩ := List.head?_eq_some_iff.1 hhead
  exact ⟨hj, by simp [clearsMark]⟩

theorem neverWaits_iff (todo : List Micro) : neverWaits todo = true ↔ ∀ m ∈ todo, neverWaits [m] = true := by
  simp [neverWaits]

theorem neverWaits_closed : StepsClosed fun m => neverWaits [m] = true := by simp [StepsClosed, neverWaits]

/-- What a step leaves to do is in the order of R190 when what was to do is. -/
theorem went_waitsInOrder {k : Nat} {m : Micro} {t t' : Task} {s s' : State} (h : Went t s m t' s')
    (ho : waitsInOrder k (m :: t.todo) = true) : waitsInOrder k t'.todo = true := by
  have hrest := waitsInOrder_tail ho
  cases h with
  | copyFails => rfl
  | _ => simpa [waitsInOrder] using hrest

/-- A step leaves a waiter mark, takes it away, or is the entry of a WAIT.d, which sets it (R42, R190). -/
theorem went_waiter {m : Micro} {t t' : Task} {s s' : State} (h : Went t s m t' s') (d : Dir) :
    s'.waiter.get d = s.waiter.get d ∨ s'.waiter.get d = none ∨ ∃ k, m = .waitEnter d k ∧ s'.waiter.get d = some k := by
  have cleared : ∀ d', (s.waiter.set d' none).get d = s.waiter.get d ∨ (s.waiter.set d' none).get d = none := by
    intro d'
    by_cases hd : d = d'
    · subst hd; simp
    · simp [hd]
  cases h with
  | read r => rcases regRead_state r s with e | e <;> simp [e]
  | waitEnter d' k =>
    by_cases hd : d = d'
    · subst hd; simp
    · simp [hd]
  | waitBlock d' | unwait d' | resetDirection d' => simpa using cleared d'
  | _ => simp

/-- A caller whose steps clear its mark on `d` has cleared it after a step, or its steps still do (R174, R190). -/
theorem went_clearsMark {m : Micro} {t t' : Task} {s s' : State} {d : Dir} (h : Went t s m t' s')
    (hc : clearsMark d (m :: t.todo) = true) : clearsMark d t'.todo = true ∨ s'.waiter.get d = none := by
  cases h with
  | enter | rmw | putReady => exact .inl hc
  | waitBlock d' | unwait d' =>
    obtain rfl : d' = d := by simpa [clearsMark] using hc
    simp
  | _ => cases hc

/-- A caller that has nothing to clear a mark with has none. -/
theorem State.waitersBlocked.noMark {s : State} {k : Nat} (hs : s.waitersBlocked)
    (hk : ∀ d t, (s.callerOf k).task = some t → clearsMark d t.todo = false) (d : Dir) : s.waiter.get d ≠ some k := by
  intro hw
  obtain ⟨hmarks, _⟩ := hs
  obtain ⟨t, ht, hc⟩ := hmarks d k hw
  rw [hk d t ht] at hc; cases hc

/-- A caller's record may become one whose operation clears the caller's marks and has its waits in order. -/
theorem State.waitersBlocked.record {s : State} {k : Nat} {x : Caller} (hs : s.waitersBlocked)
    (hmark : ∀ d, s.waiter.get d = some k → ∃ t, x.task = some t ∧ clearsMark d t.todo = true)
    (horder : ∀ t, x.task = some t → waitsInOrder k t.todo = true) : (s.setCaller k x).waitersBlocked := by
  obtain ⟨hmarks, horders, hreactions⟩ := hs
  refine ⟨fun d j hw => ?_, fun j t ht => ?_, hreactions⟩ <;> by_cases hj : j = k
  · subst hj; rw [State.setCaller_callerOf_same]; exact hmark d hw
  · rw [State.setCaller_callerOf_other _ _ _ _ hj]; exact hmarks d j hw
  · subst hj; rw [State.setCaller_callerOf_same] at ht; exact horder t ht
  · rw [State.setCaller_callerOf_other _ _ _ _ hj] at ht; exact horders j t ht

theorem State.waitersBlocked.reaction {s : State} {l : Line} {x : Option Task} (hs : s.waitersBlocked)
    (hx : ∀ t, x = some t → neverWaits t.todo = true) : (s.setHandler l x).waitersBlocked := by
  obtain ⟨hmarks, horders, hreactions⟩ := hs
  refine ⟨hmarks, horders, fun l' t ht => ?_⟩
  by_cases hl : l' = l
  · subst hl; rw [State.setHandler_handler, PerLine.get_set_same] at ht; exact hx t ht
  · rw [State.setHandler_handler, PerLine.get_set_other _ _ _ _ hl] at ht; exact hreactions l' t ht

/-- The invariant during a turn of caller `k`: it holds of the state in which the steps still to do are recorded for the caller. -/
theorem went_waitersBlocked {k : Nat} {m : Micro} {rest : List Micro} {t t' : Task} {s s' : State} (ht : t.todo = m :: rest)
    (h : Went { t with todo := rest } s m t' s') (hs : (s.pauses k t).waitersBlocked) : (s'.pauses k t').waitersBlocked := by
  obtain ⟨hmarks, horders, hreactions⟩ := hs
  have horder : waitsInOrder k (m :: rest) = true := ht ▸ horders k t (by simp)
  refine ⟨fun d j hw => ?_, fun j u hu => ?_, fun l u hu => hreactions l u (by simpa [went_handler h] using hu)⟩
  · rw [pauses_waiter] at hw
    rcases went_waiter h d with e | e | ⟨i, rfl, e⟩
    · obtain ⟨u, hu, hc⟩ := hmarks d j (by rwa [pauses_waiter, ← e])
      by_cases hj : j = k
      · subst hj
        obtain rfl : t = u := by simpa using hu
        refine ⟨t', by simp, (went_clearsMark h (ht ▸ hc)).resolve_right (by simp [hw])⟩
      · rw [pauses_callerOf_other _ _ _ _ hj] at hu ⊢
        rcases went_callerOf h j with e' | ⟨⟨d', i, rfl, hw'⟩, _⟩
        · exact ⟨u, by rw [e', hu], hc⟩
        · obtain ⟨u', hu', hc'⟩ := hmarks d' j hw'
          rw [pauses_callerOf_other _ _ _ _ hj, hu] at hu'
          obtain rfl := Option.some.inj hu'
          obtain rfl := clearsMark_unique hc hc'
          cases h; simp at hw
    · rw [e] at hw; cases hw
    · obtain ⟨rfl, hc⟩ := waitsInOrder_waitEnter horder
      obtain rfl : i = j := by simpa [e] using hw
      cases h
      exact ⟨_, by simp; rfl, hc⟩
  · by_cases hj : j = k
    · subst hj
      obtain rfl : t' = u := by simpa using hu
      exact went_waitsInOrder h horder
    · rw [pauses_callerOf_other _ _ _ _ hj] at hu
      refine horders j u ?_
      rw [pauses_callerOf_other _ _ _ _ hj]
      rcases went_callerOf h j with e | ⟨_, e, _⟩
      · rwa [e] at hu
      · rw [e] at hu; cases hu

/-- A turn that ends its operation ends it with no step left, or at a BEGIN_TRANSFER that raises an error (R170, R240); what every
step of the turn keeps holds there. -/
theorem runMicros_done_induct (I : Task → State → Prop)
    (step : ∀ m rest t s t' s', t.todo = m :: rest → I t s → micro m { t with todo := rest } s = .go t' s' → I t' s')
    {n : Nat} {t : Task} {s s' : State} {r : Result} {dst : Option (List Byte)} (hI : I t s)
    (h : runMicros n t s = .done r dst s') :
    ∃ t', I t' s' ∧ (t'.todo = [] ∨ ∃ d len rest, t'.todo = .claim d len :: rest) := by
  induction n generalizing t s with
  | zero => cases h
  | succ n ih =>
    cases ht : t.todo with
    | nil => rw [runMicros_nil n t s ht] at h; cases h; exact ⟨t, hI, .inl ht⟩
    | cons m rest =>
      cases hm : micro m { t with todo := rest } s with
      | raise e u =>
        obtain ⟨rfl, d, len, rfl, _⟩ := micro_raise hm
        rw [runMicros_raise ht hm] at h; cases h
        exact ⟨t, hI, .inr ⟨d, len, rest, ht⟩⟩
      | hold => rw [runMicros_hold ht hm] at h; cases h
      | refuse r => simp [runMicros, ht, hm] at h
      | go u v =>
        have hI' := step m rest t s u v ht hI hm
        by_cases he : u.todo = []
        · rw [runMicros_last ht hm he] at h; cases h; exact ⟨u, hI', .inl he⟩
        · rw [runMicros_more ht hm he] at h; exact ih hI' h

/-- The record of a caller that stops with steps left is overwritten by the next one. -/
theorem pauses_setCaller (s : State) (k : Nat) (t : Task) (x : Caller) :
    (s.pauses k t).setCaller k x = (s.setCaller k x).turnOver := by
  simp [State.pauses, State.setCaller, State.turnOver]

/-- A turn of a caller keeps the invariant (R190). -/
theorem callerTurn_waitersBlocked {k : Nat} {t : Task} {s u : State} (hs : (s.pauses k t).waitersBlocked)
    (h : runCallerTask k t s = .next u) : u.waitersBlocked := by
  have step : ∀ m rest t s t' s', t.todo = m :: rest → (s.pauses k t).waitersBlocked →
      micro m { t with todo := rest } s = .go t' s' → (s'.pauses k t').waitersBlocked :=
    fun _ _ _ _ _ _ ht hI hm => went_waitersBlocked ht (micro_went hm).2 hI
  rcases runCallerTask_next h with ⟨r, dst, v, hv, rfl⟩ | ⟨t', v, hv, rfl⟩
  · obtain ⟨t', hI, hend⟩ := runMicros_done_induct (fun t s => (s.pauses k t).waitersBlocked) step hs hv
    have hnone : ∀ d, v.waiter.get d ≠ some k := hI.noMark fun d u hu => by
      obtain rfl : t' = u := by simpa using hu
      rcases hend with e | ⟨_, _, _, e⟩ <;> rw [e] <;> rfl
    have hrec := hI.record (x := (v.returns k r dst).callerOf k) (fun d hw => absurd hw (hnone d)) (by simp)
    rw [pauses_setCaller, returns_callerOf_same] at hrec
    exact hrec
  · exact (runMicros_induct (fun t s => (s.pauses k t).waitersBlocked) step _ _ _ hs).2 _ _ hv

/-- A turn of a reaction keeps the invariant: none of its steps waits or resets a session (R5, R257). -/
theorem handlerTurn_waitersBlocked {l : Line} {t : Task} {s u : State} (hs : s.waitersBlocked) (ht : neverWaits t.todo = true)
    (h : runHandlerTask l t s = .next u) : u.waitersBlocked := by
  have key := runMicros_induct (fun t s => s.waitersBlocked ∧ neverWaits t.todo = true) (fun m rest t s t' s' hto hI hm => ?_)
    (turnLength s) t s ⟨hs, ht⟩
  · rcases runHandlerTask_next h with ⟨r, dst, v, hv, rfl⟩ | ⟨t', v, hv, rfl⟩
    · obtain ⟨_, hI, _⟩ := key.1 _ _ _ hv
      exact hI.reaction nofun
    · obtain ⟨hI, hnever⟩ := key.2 _ _ hv
      exact hI.reaction fun _ e => Option.some.inj e ▸ hnever
  · obtain ⟨⟨hmarks, horders, hreactions⟩, hnever⟩ := hI
    have hwent := (micro_went hm).2
    rw [hto, neverWaits_iff, List.forall_mem_cons] at hnever
    obtain ⟨hhead, hrest⟩ := hnever
    have hcaller : ∀ k, s'.callerOf k = s.callerOf k := fun k =>
      (went_callerOf hwent k).resolve_right (by rintro ⟨⟨d, j, rfl, _⟩, _⟩; cases hhead)
    refine ⟨⟨fun d k hw => ?_, fun k u => hcaller k ▸ horders k u, went_handler hwent ▸ hreactions⟩,
      (neverWaits_iff _).2 (went_steps neverWaits_closed hhead hrest hwent)⟩
    rw [hcaller]
    rcases went_waiter hwent d with e | e | ⟨j, rfl, _⟩
    · exact hmarks d k (e ▸ hw)
    · rw [e] at hw; cases hw
    · cases hhead

/-! ### The steps an agent begins with -/

/-- The steps of an operation have their waits in order, and a session reset's are its caller's own session's. -/
theorem stepsOf_waitsInOrder (i : Instr) (s : State) : waitsInOrder s.caller (stepsOf i s) = true := by
  cases i <;> simp [stepsOf, setOffsetSteps, abortSteps, resetAllSteps, resetRegs, completionSteps, waitsInOrder]

theorem sessionResetSteps_waitsInOrder (k : Nat) : waitsInOrder k (sessionResetSteps k) = true := by
  simp [sessionResetSteps, resetRegs, waitsInOrder]

theorem stepsOf_neverWaits (l : Line) (s : State) : neverWaits (stepsOf (eventOf l) s) = true := by cases l <;> rfl

/-- An idle caller has no waiter mark. -/
theorem State.waitersBlocked.idle {s : State} {k : Nat} (hs : s.waitersBlocked) (hi : s.idle k = true) (d : Dir) :
    s.waiter.get d ≠ some k :=
  hs.noMark (fun d t ht => by simp [State.idle, ht] at hi) d

/-- An idle caller may have steps recorded that are in order. -/
theorem pauses_waitersBlocked_of_idle {s : State} {k : Nat} {t : Task} (hs : s.waitersBlocked) (hi : s.idle k = true)
    (ho : waitsInOrder k t.todo = true) : (s.pauses k t).waitersBlocked :=
  hs.record (fun d hw => absurd hw (hs.idle hi d)) (fun _ e => Option.some.inj e ▸ ho)

theorem returns_waitersBlocked_of_idle {s : State} {k : Nat} {r : Result} {dst : Option (List Byte)} (hs : s.waitersBlocked)
    (hi : s.idle k = true) : (s.returns k r dst).waitersBlocked :=
  hs.record (fun d hw => absurd hw (hs.idle hi d)) nofun

/-- The caller blocked in WAIT.d may have the steps of ABORT.d recorded, which clear its mark (R174). -/
theorem pauses_waitersBlocked_of_abort {s : State} {k : Nat} {d : Dir} {t : Task} (hs : s.waitersBlocked)
    (hb : blockedIn k d s = true) (ht : t.todo = abortSteps d) : (s.pauses k t).waitersBlocked := by
  refine hs.record (fun d' hw => ⟨t, rfl, ?_⟩) (fun _ e => Option.some.inj e ▸ ht ▸ rfl)
  obtain ⟨u, rest, hu, hto⟩ := (blockedIn_iff k d s).1 hb
  obtain ⟨hmarks, _⟩ := hs
  obtain ⟨u', hu', hc⟩ := hmarks d' k hw
  obtain rfl := Option.some.inj (hu.symm.trans hu')
  have hd : clearsMark d u.todo = true := by rw [hto]; exact decide_eq_true rfl
  obtain rfl := clearsMark_unique hc hd
  simp [ht, abortSteps, clearsMark]

/-- What an operation records keeps the invariant. -/
theorem exec_waitersBlocked {i : Instr} {s t : State} (hs : s.waitersBlocked) (h : exec i s = .next t) : t.waitersBlocked := by
  rcases exec_next h with ⟨d, _, rfl⟩ | ⟨_, hi, rfl⟩ | ⟨fin, hbegin, _, h⟩ | ⟨l, rfl, _, _, h⟩
  · exact hs
  · exact returns_waitersBlocked_of_idle hs hi
  · refine callerTurn_waitersBlocked ?_ h
    rcases hbegin with hi | ⟨d, rfl, _, _, _, hb⟩
    · exact pauses_waitersBlocked_of_idle hs hi (stepsOf_waitsInOrder i s)
    · exact pauses_waitersBlocked_of_abort hs hb rfl
  · exact handlerTurn_waitersBlocked hs (stepsOf_neverWaits l s) h

/-- The state with the steps of a caller's operation recorded for it, as they are. -/
theorem pauses_waitersBlocked_of_task {s : State} {k : Nat} {t t' : Task} (hs : s.waitersBlocked)
    (ht : (s.callerOf k).task = some t) (hmark : ∀ d, clearsMark d t.todo = true → clearsMark d t'.todo = true)
    (horder : waitsInOrder k t.todo = true → waitsInOrder k t'.todo = true) : (s.pauses k t').waitersBlocked := by
  have hrecord := hs.record (k := k) (x := { task := some t', result := none, dst := (s.callerOf k).dst })
  obtain ⟨hmarks, horders, _⟩ := hs
  refine hrecord (fun d hw => ⟨t', rfl, hmark d ?_⟩) (fun _ e => Option.some.inj e ▸ horder (horders k t ht))
  obtain ⟨u, hu, hc⟩ := hmarks d k hw
  obtain rfl := Option.some.inj (ht.symm.trans hu)
  exact hc

/-- `waitersBlocked` speaks of the waiter marks, the callers' records and the reactions only. -/
theorem State.waitersBlocked_of_agents {s s' : State} (hs : s.waitersBlocked) (hwaiter : s'.waiter = s.waiter)
    (hcallers : s'.callers = s.callers) (hhandler : s'.handler = s.handler) : s'.waitersBlocked := by
  unfold State.waitersBlocked State.callerOf at hs ⊢
  rwa [hwaiter, hcallers, hhandler]

/-- Opening a block touches no mark and no record. -/
theorem openedTask_agents {t t' : Task} {s s' : State} (h : openedTask t s = some (t', s')) :
    s'.waiter = s.waiter ∧ s'.callers = s.callers ∧ s'.handler = s.handler := by
  obtain ⟨_, d, u, rest, _, _, rfl⟩ := openedTask_some h
  simp

/-- A part of a copy touches no mark and no record. -/
theorem partTask_agents {n : Nat} {t t' : Task} {s s' : State} (h : partTask n t s = .ok (some (t', s'))) :
    s'.waiter = s.waiter ∧ s'.callers = s.callers ∧ s'.handler = s.handler := by
  rcases (partTask_some h).2 with ⟨i, bs, rest, _, hp, _⟩ | ⟨_, _, _, _, _, rfl, _⟩
  · obtain ⟨b, _, _, rfl⟩ := storePart_ok hp
    simp
  · simp

/-- The write of an opened block takes the block's place in the steps (R263). -/
theorem openBlock_waitersBlocked {a : Agent} {s t : State} (hs : s.waitersBlocked) (h : openBlock a s = .next t) :
    t.waitersBlocked := by
  rcases openBlock_next h with ⟨k, tk, tk', u, rfl, htk, ho, rfl⟩ | ⟨l, tk, tk', u, rfl, htk, ho, rfl⟩
  · obtain ⟨hwaiter, hcallers, hhandler⟩ := openedTask_agents ho
    obtain ⟨_, d, v, rest, hto, rfl, _⟩ := openedTask_some ho
    exact pauses_waitersBlocked_of_task (t := tk) (State.waitersBlocked_of_agents hs hwaiter hcallers hhandler)
      (by simpa only [State.callerOf, hcallers] using htk) (fun _ => by rw [hto]; exact id) (by rw [hto]; exact id)
  · obtain ⟨hwaiter, hcallers, hhandler⟩ := openedTask_agents ho
    obtain ⟨_, d, v, rest, hto, rfl, _⟩ := openedTask_some ho
    have ⟨_, _, hreactions⟩ := hs
    have hnever := hreactions l tk htk
    rw [hto] at hnever
    exact (State.waitersBlocked_of_agents hs hwaiter hcallers hhandler).reaction fun _ e => Option.some.inj e ▸ hnever

/-- The rest of a copy takes the copy's place in the steps, and neither clears a mark or waits (R67). -/
theorem partCopy_waitersBlocked {k n : Nat} {s t : State} (hs : s.waitersBlocked) (h : partCopy k n s = .next t) :
    t.waitersBlocked := by
  obtain ⟨tk, tk', u, htk, hp, rfl⟩ := partCopy_next h
  obtain ⟨hwaiter, hcallers, hhandler⟩ := partTask_agents hp
  have hrec := pauses_waitersBlocked_of_task (t := tk) (t' := tk')
    (State.waitersBlocked_of_agents hs hwaiter hcallers hhandler) (by simpa only [State.callerOf, hcallers] using htk)
  rcases (partTask_some hp).2 with ⟨i, bs, rest, hto, _, rfl⟩ | ⟨loaded, rest, data, hto, _, _, rfl⟩ <;> rw [hto] at hrec
  · exact hrec (fun _ => id) id
  · exact hrec (fun _ => id) id

/-- A device move touches no mark and no record (R7). -/
theorem deviceMove_waitersBlocked {m : DeviceMove} {s t : State} (hs : s.waitersBlocked) (h : deviceMove m s = .next t) :
    t.waitersBlocked := by
  obtain ⟨hcallers, hhandler⟩ := deviceMove_agents h
  obtain ⟨_, _, hwaiter, _⟩ := deviceMove_frame h
  exact State.waitersBlocked_of_agents hs hwaiter hcallers hhandler

/-- Every move keeps the invariant: the agents' turns, the records an operation leaves, and nothing else touches a mark. -/
theorem takeMove_waitersBlocked {m : Move} {s t : State} (hs : s.waitersBlocked) (h : takeMove m s = .next t) :
    t.waitersBlocked := by
  cases m with
  | issue k surface bytes =>
    simp only [takeMove, issue] at h
    split at h
    · split at h
      · cases h
      · exact exec_waitersBlocked (s := { s with caller := k }) hs h
    · obtain ⟨hi, rfl⟩ := raiseError_next h
      exact returns_waitersBlocked_of_idle (s := { s with caller := k }) hs hi
    · cases h
  | issueByEvent surface bytes =>
    simp only [takeMove, issueByEvent] at h
    split at h
    · split at h
      · exact exec_waitersBlocked hs h
      · cases h
    · cases h
  | resume a =>
    cases a with
    | caller k =>
      simp only [takeMove, resume] at h
      split at h
      · cases h; exact hs
      · next tk htk => exact callerTurn_waitersBlocked (pauses_waitersBlocked_of_task hs htk (fun _ => id) id) h
    | handler l =>
      simp only [takeMove, resume] at h
      split at h
      · cases h; exact hs
      · next tk htk =>
        have ⟨_, _, hreactions⟩ := hs
        exact handlerTurn_waitersBlocked hs (hreactions l tk htk) h
  | openBlock a => exact openBlock_waitersBlocked hs h
  | partCopy k n => exact partCopy_waitersBlocked hs h
  | sessionReset k =>
    simp only [takeMove, sessionReset] at h
    split at h
    · next hi => exact callerTurn_waitersBlocked (pauses_waitersBlocked_of_idle hs hi (sessionResetSteps_waitsInOrder k)) h
    · cases h
  | device x => exact deviceMove_waitersBlocked hs h
  | preempt | allocator | source | destination => cases h; exact hs

/-- Settles O59: `takeMove_waitersBlocked` for the next move of the schedule. -/
theorem stepKeepsWaitersBlocked : Obligations.StepKeepsWaitersBlocked := by
  intro s t hs h
  simp only [step, takeNext] at h
  split at h
  · cases h; exact hs
  · next m rest _ => exact takeMove_waitersBlocked (s := { s with schedule := rest }) hs h

/-! ## The slot's transitions (R40) -/

/-- Settles O31: BEGIN_TRANSFER's indivisible part, MARK_READY's last step, a release and a session reset's lines for the direction
are the only steps that write a slot. -/
theorem slotTransitions : Obligations.SlotTransitions := by
  intro m tk tk' s t d hm hne
  have other : ∀ {d'} {x : Slot}, (s.slot.set d' x).get d ≠ s.slot.get d → d' = d := by
    intro d' x h
    by_contra hd
    exact h (PerDir.get_set_other _ _ _ _ (Ne.symm hd))
  cases (micro_went hm).2 with
  | claim d' len dev host slot =>
    obtain rfl := other hne
    exact .inl ⟨slot, by simp, len, rfl⟩
  | awaitCompletion d' slot =>
    obtain rfl := other hne
    exact .inr (.inl ⟨slot, by simp, rfl⟩)
  | release d' slot =>
    obtain rfl := other hne
    exact .inr (.inr ⟨slot, by simp, .inl rfl⟩)
  | resetDirection d' k =>
    rw [resetDirection_slot] at hne
    obtain rfl := other hne
    exact .inr (.inr ⟨fun e => hne (by simp [e]), by simp, .inr ⟨k, rfl⟩⟩)
  | read r => rcases regRead_state r s with e | e <;> simp [e] at hne
  | _ => simp at hne

/-! ## What an operation leaves alone (R40 to R43, R49, R118, R175, R177, R192, R212, R214) -/

/-- What no step of an operation changes, the operation does not change. -/
theorem exec_unchanged {α : Type} (f : State → α) {A : Micro → Prop} {i : Instr} {s t : State} (h : exec i s = .next t)
    (hA : StepsClosed A) (hi : ∀ m ∈ stepsOf i s, A m) (hstep : ∀ {m t s t' s'}, A m → Went t s m t' s' → f s' = f s)
    (hsig : ∀ d, i = .signal d → f (s.setGate d .signaled) = f s)
    (hrec : ∀ s k x, f (s.setCaller k x) = f s := by intros; rfl) (hhan : ∀ s l x, f (s.setHandler l x) = f s := by intros; rfl)
    (hover : ∀ s, f s.turnOver = f s := by intros; rfl) : f t = f s :=
  exec_frame h hA (fun u => f u = f s) hi (fun _ _ _ _ _ hm hu hgo => (hstep hm (micro_went hgo).2).trans hu) hsig rfl
    (fun u k x hu => (hrec u k x).trans hu) (fun u l x hu => (hhan u l x).trans hu) (fun u hu => (hover u).trans hu)

/-- The class S registers that a step, or one it puts before the rest of its operation, may write. -/
def writtenBy : Micro → List SReg
  | .write (.s r) _ | .resetReg r _ => [r]
  | .rmw d _ | .putReady d _ => [readyReg d]
  | .claim d _ => [addrReg d, sizeReg d]
  | _ => []

theorem writtenBy_closed (rs : List SReg) : StepsClosed fun m => ∀ r ∈ writtenBy m, r ∈ rs := by
  simp [StepsClosed, writtenBy]

/-- The steps of an operation write the registers of its rule's list (R49, R177, R214). -/
theorem stepsOf_writtenBy (i : Instr) (s : State) : ∀ m ∈ stepsOf i s, ∀ r ∈ writtenBy m, r ∈ writtenRegs i := by
  have key : (stepsOf i s).all (fun m => (writtenBy m).all fun r => decide (r ∈ writtenRegs i)) = true := by
    cases i with
    | beginTransfer d len | markReady d | abort d => cases d <;> rfl
    | _ => rfl
  simpa only [List.all_eq_true, decide_eq_true_eq] using key

theorem went_status {m : Micro} {t t' : Task} {s s' : State} (h : Went t s m t' s') : s'.status = s.status := by
  cases h with
  | read r => rcases regRead_state r s with e | e <;> simp [e]
  | _ => simp

theorem went_reg {m : Micro} {t t' : Task} {s s' : State} {r : SReg} (h : Went t s m t' s') (hr : r ∉ writtenBy m) :
    s'.reg r = s.reg r := by
  cases h with
  | read r' => rcases regRead_state r' s with e | e <;> simp [e]
  | write r' v => exact State.setReg_reg_other _ _ _ _ (by simpa [writtenBy] using hr)
  | resetReg r' k => exact State.setReg_reg_other _ _ _ _ (by simpa [writtenBy] using hr)
  | rmw d u =>
    have hne : r ≠ readyReg d := by simpa [writtenBy] using hr
    rw [updateReady_reg_other _ _ _ _ hne, closeOpen_reg_other _ _ _ hne]
  | putReady d id => exact closeBlock_reg_other _ _ _ _ (by simpa [writtenBy] using hr)
  | _ => simp

/-- Settles O50: the steps of an operation write the registers of its list, and none writes a status word. -/
theorem registerFrame : Obligations.RegisterFrame := by
  intro i s t h
  refine ⟨exec_unchanged State.status h stepsClosed_true (fun _ _ => trivial) (fun _ hw => went_status hw) (fun _ _ => rfl),
    fun r hr => ?_⟩
  exact exec_unchanged (fun u => u.reg r) h (writtenBy_closed (writtenRegs i)) (stepsOf_writtenBy i s)
    (fun hm hw => went_reg hw fun hmem => hr (hm r hmem)) (fun _ _ => rfl)

/-- The parts of the control state (R40 to R42, R175, R192). -/
inductive ControlPart
  | slot
  | buf
  | handle
  | gate
  | waiter
deriving DecidableEq

/-- The parts that a step, or one it puts before the rest of its operation, may change. -/
def partsOf : Micro → List ControlPart
  | .claim _ _ => [.slot, .buf, .handle, .gate]
  | .giveHandle _ _ => [.handle]
  | .awaitCompletion _ => [.slot]
  | .waitEnter _ _ | .unwait _ => [.waiter]
  | .waitBlock _ => [.handle, .gate, .waiter]
  | .copyIn _ | .complete _ _ | .release _ => [.slot, .buf, .handle]
  | .storeBytes _ _ => [.buf]
  | .signal _ => [.gate]
  | .resetDirection _ _ => [.slot, .buf, .handle, .gate, .waiter]
  | _ => []

theorem partsOf_closed (c : ControlPart) : StepsClosed fun m => c ∉ partsOf m := by
  cases c <;> simp [StepsClosed, partsOf]

/-- That part of the control state is the same in two states. -/
def samePart : ControlPart → State → State → Prop
  | .slot, s, t => t.slot = s.slot
  | .buf, s, t => t.buf = s.buf
  | .handle, s, t => t.handle = s.handle
  | .gate, s, t => t.gate = s.gate
  | .waiter, s, t => t.waiter = s.waiter

theorem samePart.refl (c : ControlPart) (s : State) : samePart c s s := by cases c <;> rfl

theorem samePart.trans {c : ControlPart} {s t u : State} (h : samePart c s t) (h' : samePart c t u) : samePart c s u := by
  cases c <;> exact Eq.trans h' h

/-- A step leaves the parts it may not change. -/
theorem went_samePart {c : ControlPart} {m : Micro} {t t' : Task} {s s' : State} (h : Went t s m t' s')
    (hm : c ∉ partsOf m) : samePart c s s' := by
  revert hm
  cases h with
  | read r => rcases regRead_state r s with e | e <;> cases c <;> simp [samePart, e]
  | _ => cases c <;> simp [partsOf, samePart]

/-- The parts an operation's rule changes. -/
def changedBy (c : ControlPart) (i : Instr) : Prop :=
  match c with
  | .slot => changesSlot i = true
  | .buf => changesBuffer i = true
  | .handle => changesBuffer i = true ∨ ∃ d, i = .wait d
  | .gate => changesGate i = true
  | .waiter => changesWaiter i = true

/-- The steps of an operation change only what its rule does. -/
theorem stepsOf_partsOf (i : Instr) (s : State) : ∀ m ∈ stepsOf i s, ∀ c ∈ partsOf m, changedBy c i := by
  have nothing : (stepsOf i s).all (fun m => (partsOf m).isEmpty) = true → ∀ m ∈ stepsOf i s, ∀ c ∈ partsOf m, changedBy c i := by
    intro h m hm c hc
    rw [List.isEmpty_iff.1 (List.all_eq_true.1 h m hm)] at hc
    cases hc
  cases i with
  | beginTransfer | markReady | completeAndRelease | wait | abort | read | write | evReadComplete | evWriteComplete =>
    simp [stepsOf, abortSteps, completionSteps, partsOf, changedBy, changesSlot, changesBuffer, changesGate, changesWaiter]
  | _ => exact nothing rfl

/-- An operation leaves the parts its rule does not change. -/
theorem exec_samePart {c : ControlPart} {i : Instr} {s t : State} (h : exec i s = .next t) (hi : ¬ changedBy c i) :
    samePart c s t :=
  exec_frame h (partsOf_closed c) (samePart c s) (fun m hm hc => hi (stepsOf_partsOf i s m hm c hc))
    (fun _ _ _ _ _ hm hu hgo => hu.trans (went_samePart (micro_went hgo).2 hm))
    (fun d e => by
      subst e
      cases c with
      | gate => exact absurd rfl hi
      | _ => rfl)
    (samePart.refl c s)
    (fun _ _ _ hu => by cases c <;> exact hu) (fun _ _ _ hu => by cases c <;> exact hu) (fun _ hu => by cases c <;> exact hu)

/-- The line whose pending mark a step may clear (R43, R115). -/
def ackedBy : Micro → Option Line
  | .ack l => some l
  | .write (.a r) _ => ackLine r
  | _ => none

theorem stepsOf_ackedBy (i : Instr) (s : State) : ∀ m ∈ stepsOf i s, ∀ l, ackedBy m = some l → acknowledges i = some l := by
  have key : (stepsOf i s).all (fun m => decide (ackedBy m = none ∨ ackedBy m = acknowledges i)) = true := by cases i <;> rfl
  simp only [List.all_eq_true, decide_eq_true_eq] at key
  intro m hm l hl
  rcases key m hm with e | e
  · rw [e] at hl; cases hl
  · rw [← e, hl]

theorem ackedBy_closed (l : Line) : StepsClosed fun m => ackedBy m ≠ some l := by simp [StepsClosed, ackedBy]

theorem went_pending {m : Micro} {t t' : Task} {s s' : State} {l : Line} (h : Went t s m t' s') (hm : ackedBy m ≠ some l) :
    s'.pending.get l = s.pending.get l := by
  cases h with
  | read r => rcases regRead_state r s with e | e <;> simp [e]
  | ackWrite l' =>
    have hl : l ≠ l' := by rintro rfl; exact hm (by cases l <;> rfl)
    simp [hl]
  | ack l' =>
    have hl : l ≠ l' := by rintro rfl; exact hm rfl
    simp [hl]
  | _ => simp

theorem exec_pending {i : Instr} {s t : State} {l : Line} (h : exec i s = .next t) (hl : acknowledges i ≠ some l) :
    t.pending.get l = s.pending.get l :=
  exec_unchanged (fun u => u.pending.get l) h (ackedBy_closed l) (fun m hm e => hl (stepsOf_ackedBy i s m hm l e))
    (fun hm hw => went_pending hw hm) (fun _ _ => rfl)

/-- The bytes of a direction are those of its buffer (R61). -/
theorem bufferByte_of_buf {s t : State} {d : Dir} (h : t.buf.get d = s.buf.get d) (a : Nat) :
    t.bufferByte d a = s.bufferByte d a := by
  simp only [State.bufferByte, h]

/-- Settles O51: for each part of the control state, the steps of an operation that leaves it alone do too. -/
theorem controlStateFrame : Obligations.ControlStateFrame := by
  intro i s t h
  have unchanged : ∀ c, ¬ changedBy c i → samePart c s t := fun _ => exec_samePart h
  have hbuf : changesBuffer i = false → t.buf = s.buf := fun hi => unchanged .buf (by simp [changedBy, hi])
  refine ⟨fun hi => unchanged .slot (by simp [changedBy, hi]),
    fun hi => ⟨hbuf hi, fun d a => bufferByte_of_buf (by rw [hbuf hi]) a⟩, fun d d' a _ hd hne => ?_,
    fun hi hw => unchanged .handle (by simp [changedBy, hi, hw]), fun hi => unchanged .gate (by simp [changedBy, hi]),
    fun hi => unchanged .waiter (by simp [changedBy, hi]), fun l hl => exec_pending h hl⟩
  obtain ⟨_, hother, _⟩ := directionsAreIndependent i d d' s t hd hne h
  exact bufferByte_of_buf hother a

/-! ## Who changes a flag, and in which direction (R37 to R39, R43, R49, R116) -/

/-- What an update of READY makes of the ready bit (R93). -/
theorem applyReadyUpdate_bit0 (u : ReadyUpdate) (v : Word) :
    (applyReadyUpdate u v).getLsbD 0 = match u with
      | .setReady => true
      | .clearReady => false
      | .putOffHi _ => v.getLsbD 0 := by
  cases u with
  | setReady => exact setReadyBit_getLsbD v 0 (by decide)
  | clearReady => exact clearReadyBit_getLsbD v 0 (by decide)
  | putOffHi h => exact putOffHi_getLsbD v h 0 (by decide)

/-- The step may turn ready bit `d` to `b`. -/
def turnsReady (d : Dir) (b : Bool) : Micro → Bool
  | .rmw d' .setReady => decide (d' = d) && b
  | .rmw d' .clearReady => decide (d' = d) && !b
  | .write (.s r) v => decide (r = readyReg d) && (v.getLsbD 0 == b)
  | .resetReg r _ => decide (r = readyReg d) && !b
  | _ => false

theorem turnsReady_closed (d : Dir) (b : Bool) : StepsClosed fun m => turnsReady d b m = false := by
  simp [StepsClosed, turnsReady, (readyReg_ne_addrReg _ _).symm, (readyReg_ne_sizeReg _ _).symm]

/-- Steps that each leave a flag alone, or belong to an operation listed for it. -/
theorem listed_of_all {steps : List Micro} {turns : Micro → Bool} {listed : Bool}
    (h : steps.all (fun m => listed || !turns m) = true) : ∀ m ∈ steps, turns m = true → listed = true := by
  intro m hm ht
  simpa [ht] using List.all_eq_true.1 h m hm

theorem stepsOf_setsReady (d : Dir) (i : Instr) (s : State) :
    ∀ m ∈ stepsOf i s, turnsReady d true m = true → setsReady d i = true :=
  listed_of_all (by
    cases i with
    | markReady d' | abort d' => cases d' <;> cases d <;> rfl
    | _ => cases d <;> rfl)

theorem stepsOf_clearsReady (d : Dir) (i : Instr) (s : State) :
    ∀ m ∈ stepsOf i s, turnsReady d false m = true → clearsReady d i = true :=
  listed_of_all (by
    cases i with
    | markReady d' | abort d' => cases d' <;> cases d <;> rfl
    | _ => cases d <;> rfl)

/-- Ready bit `d` is `b`, also in the word an open block of `d` is about to write (R263; log 11). -/
def readySettled (d : Dir) (b : Bool) (s : State) : Prop :=
  s.ready d = b ∧ ∀ o, s.opened.get d = some o → o.word.getLsbD 0 = b

theorem readySettled_of_opened_none {d : Dir} {b : Bool} {s : State} (hr : s.ready d = b) (ho : s.opened.get d = none) :
    readySettled d b s := ⟨hr, fun o h => by rw [ho] at h; cases h⟩

theorem closeOpen_ready {d : Dir} {b : Bool} {s : State} (hs : readySettled d b s) : (closeOpen d s).ready d = b := by
  obtain ⟨hready, hopen⟩ := hs
  cases ho : s.opened.get d with
  | none => rwa [closeOpen_none ho]
  | some o => rw [closeOpen_some ho, State.ready, State.setOpened_reg, State.setReg_reg_same]; exact hopen o ho

/-- A step turns a ready bit only to what it may turn it to. -/
theorem went_readySettled {m : Micro} {t t' : Task} {s s' : State} {d : Dir} {b : Bool} (h : Went t s m t' s')
    (hm : turnsReady d (!b) m = false) (hs : readySettled d b s) : readySettled d b s' := by
  obtain ⟨hready, hopen⟩ := hs
  suffices hready' : s'.ready d = b by
    refine ⟨hready', fun o ho => ?_⟩
    rcases went_opened h d with e | ⟨e, _⟩ <;> rw [e] at ho
    · exact hopen o ho
    · cases ho
  have same : readyReg d ∉ writtenBy m → s'.ready d = b := fun hw => by rw [State.ready, went_reg h hw]; exact hready
  cases h with
  | write r v =>
    by_cases e : readyReg d = r
    · subst e
      rw [State.ready, State.setReg_reg_same]
      simpa [turnsReady] using hm
    · exact same (by simpa [writtenBy] using e)
  | resetReg r k =>
    by_cases e : readyReg d = r
    · subst e
      obtain rfl : b = false := by simpa [turnsReady] using hm
      simp [State.ready]
    · exact same (by simpa [writtenBy] using e)
  | rmw d' u =>
    by_cases e : d = d'
    · subst e
      have hclose : ((closeOpen d s).reg (readyReg d)).getLsbD 0 = b := closeOpen_ready ⟨hready, hopen⟩
      rw [State.ready, updateReady_reg_same, applyReadyUpdate_bit0]
      cases u with
      | setReady => exact Eq.symm (by simpa [turnsReady] using hm)
      | clearReady => exact Eq.symm (by simpa [turnsReady] using hm)
      | putOffHi h => exact hclose
    · exact same (by simpa [writtenBy] using e)
  | putReady d' id =>
    by_cases e : d = d'
    · subst e
      rcases closeBlock_cases d id s with ⟨_, e⟩ | ⟨_, e⟩ <;> rw [e]
      · exact closeOpen_ready ⟨hready, hopen⟩
      · exact hready
    · exact same (by simpa [writtenBy] using e)
  | _ => exact same (by simp [writtenBy])

/-- A ready bit is turned only by an operation with a step that does so, where no open block's write comes first. -/
theorem exec_ready {i : Instr} {s t : State} {d : Dir} {b : Bool} (h : exec i s = .next t) (hs : readySettled d b s)
    (hi : ∀ m ∈ stepsOf i s, turnsReady d (!b) m = false) : t.ready d = b :=
  (exec_frame h (turnsReady_closed d (!b)) (readySettled d b) hi
    (fun _ _ _ _ _ hm hu hgo => went_readySettled (micro_went hgo).2 hm hu) (fun _ _ => hs) hs
    (fun _ _ _ hu => hu) (fun _ _ _ hu => hu) (fun _ hu => hu)).1

/-- The step may turn gate `d` to `g` (R39, R192). -/
def turnsGate (d : Dir) : Gate → Micro → Bool
  | .signaled, .signal d' => decide (d' = d)
  | .pending, .claim d' _ | .pending, .waitBlock d' | .pending, .resetDirection d' _ => decide (d' = d)
  | _, _ => false

theorem turnsGate_closed (d : Dir) (g : Gate) : StepsClosed fun m => turnsGate d g m = false := by
  cases g <;> simp [StepsClosed, turnsGate]

theorem stepsOf_signalsGate (d : Dir) (i : Instr) (s : State) :
    ∀ m ∈ stepsOf i s, turnsGate d .signaled m = true → signalsGate d i = true :=
  listed_of_all (by
    cases i with
    | signal d' => rfl
    | _ => cases d <;> rfl)

theorem stepsOf_resetsGate (d : Dir) (i : Instr) (s : State) :
    ∀ m ∈ stepsOf i s, turnsGate d .pending m = true → resetsGate d i = true :=
  listed_of_all (by
    cases i with
    | beginTransfer d' len | wait d' => cases d' <;> cases d <;> rfl
    | _ => cases d <;> rfl)

theorem went_gate {m : Micro} {t t' : Task} {s s' : State} {d : Dir} {g : Gate} (h : Went t s m t' s')
    (hm : turnsGate d g m = false) (hs : s.gate.get d ≠ g) : s'.gate.get d ≠ g := by
  have written : ∀ {d' : Dir} {x : Gate}, (d' = d → x ≠ g) → (s.gate.set d' x).get d ≠ g := by
    intro d' x hx
    by_cases e : d = d'
    · subst e; rw [PerDir.get_set_same]; exact hx rfl
    · rwa [PerDir.get_set_other _ _ _ _ e]
  cases h with
  | read r => rcases regRead_state r s with e | e <;> rw [e] <;> exact hs
  | signal d' => exact written (by cases g <;> simp_all [turnsGate])
  | claim d' | waitBlock d' => exact written (by cases g <;> simp_all [turnsGate])
  | resetDirection d' => rw [resetDirection_gate]; exact written (by cases g <;> simp_all [turnsGate])
  | _ => simpa using hs

/-- A gate is turned to `g` only by an operation with a step that does so. -/
theorem exec_gate {i : Instr} {s t : State} {d : Dir} {g : Gate} (h : exec i s = .next t) (hs : s.gate.get d ≠ g)
    (hi : ∀ m ∈ stepsOf i s, turnsGate d g m = false) (hsig : i = .signal d → g ≠ .signaled) : t.gate.get d ≠ g := by
  refine exec_frame h (turnsGate_closed d g) (fun u => u.gate.get d ≠ g) hi
    (fun _ _ _ _ _ hm hu hgo => went_gate (micro_went hgo).2 hm hu) (fun d' e => ?_) hs
    (fun _ _ _ hu => hu) (fun _ _ _ hu => hu) (fun _ hu => hu)
  by_cases hd : d = d'
  · subst hd
    simpa using (hsig e).symm
  · simpa [hd] using hs

/-- No step raises a line (R43). -/
theorem went_pending_low {m : Micro} {t t' : Task} {s s' : State} {l : Line} (h : Went t s m t' s')
    (hs : s.pending.get l = false) : s'.pending.get l = false := by
  by_cases hm : ackedBy m = some l
  · cases h with
    | ackWrite l' | ack l' =>
      by_cases e : l = l'
      · subst e; simp
      · simpa [e] using hs
    | _ => cases hm
  · rw [went_pending h hm]; exact hs

theorem exec_pending_low {i : Instr} {s t : State} {l : Line} (h : exec i s = .next t) (hs : s.pending.get l = false) :
    t.pending.get l = false :=
  exec_frame h stepsClosed_true (fun u => u.pending.get l = false) (fun _ _ => trivial)
    (fun _ _ _ _ _ _ hu hgo => went_pending_low (micro_went hgo).2 hu) (fun _ _ => hs) hs (fun _ _ _ hu => hu) (fun _ _ _ hu => hu)
    (fun _ hu => hu)

/-- The done registers are none of the transfer's registers. -/
theorem transferDone_ne (d : Dir) :
    (.readTransferDone ≠ readyReg d ∧ .readTransferDone ≠ addrReg d ∧ .readTransferDone ≠ sizeReg d) ∧
      .writeTransferDone ≠ readyReg d ∧ .writeTransferDone ≠ addrReg d ∧ .writeTransferDone ≠ sizeReg d := by
  cases d <;> decide

/-- An operation that writes the done register of `d` is one of R49's list. -/
theorem writesDone_of_writtenRegs {d : Dir} {i : Instr} (h : doneReg d ∈ writtenRegs i) : writesDone d i = true := by
  revert h
  cases i <;> cases d <;> simp [writtenRegs, writesDone, doneReg, transferDone_ne]

/-- Settles O53: each clause by the steps that can make the change, and the done flags by the register frame. -/
theorem flagWriters : Obligations.FlagWriters := by
  intro i s t d h
  have none_of : ∀ {p : Micro → Bool} {q : Bool}, (∀ m ∈ stepsOf i s, p m = true → q = true) → ¬ q = true →
      ∀ m ∈ stepsOf i s, p m = false := fun hp hq m hm => Bool.eq_false_iff.2 fun e => hq (hp m hm e)
  refine ⟨fun ho hr ht => ?_, fun ho hr ht => ?_, fun hd => ?_, fun hs ht => ?_, fun hs ht => ?_,
    fun l hs => exec_pending_low h hs, fun l hs ht => ?_⟩ <;> by_contra hi
  · rw [exec_ready h (readySettled_of_opened_none hr ho) (none_of (stepsOf_setsReady d i s) hi)] at ht; cases ht
  · rw [exec_ready h (readySettled_of_opened_none hr ho) (none_of (stepsOf_clearsReady d i s) hi)] at ht; cases ht
  · have hreg := (registerFrame i s t h).2 (doneReg d) fun hmem => hi (writesDone_of_writtenRegs hmem)
    exact hd (by simp only [State.done, hreg])
  · exact exec_gate h (by simp [hs]) (none_of (stepsOf_signalsGate d i s) hi) (fun e => absurd (by simp [e, signalsGate]) hi) ht
  · exact exec_gate h (by simp [hs]) (none_of (stepsOf_resetsGate d i s) hi) (fun _ => nofun) ht
  · rw [exec_pending h hi, hs] at ht; cases ht

/-! ## The reserved bits of READY and OFFSET (R46, R105) -/

/-- The bits the spec reserves in a register are zero in a word (R11, R13, R105). -/
def reservedClear : SReg → Word → Prop
  | .readBufferReady, v | .writeBufferReady, v => v.extractLsb' 1 15 = 0
  | .readBufferOffset, v | .writeBufferOffset, v => v.extractLsb' 16 16 = 0
  | _, _ => True

theorem reservedClear_readyReg (d : Dir) (v : Word) : reservedClear (readyReg d) v ↔ v.extractLsb' 1 15 = 0 := by
  cases d <;> rfl

theorem reservedClear_offsetReg (d : Dir) (v : Word) : reservedClear (offsetReg d) v ↔ v.extractLsb' 16 16 = 0 := by
  cases d <;> rfl

theorem reservedClear_zero (r : SReg) : reservedClear r 0 := by cases r <;> simp [reservedClear]

theorem keepsReserved_write (r : SReg) (v : Word) : keepsReserved (.write (.s r) v) = true ↔ reservedClear r v := by
  cases r <;> simp [keepsReserved, reservedClear]

/-- The updates of R93 leave bits [15:1] of READY as they are. -/
theorem applyReadyUpdate_reserved (u : ReadyUpdate) (v : Word) : (applyReadyUpdate u v).extractLsb' 1 15 = v.extractLsb' 1 15 := by
  apply BitVec.eq_of_getLsbD_eq
  intro i hi
  simp only [BitVec.getLsbD_extractLsb', hi, decide_true, Bool.true_and]
  cases u with
  | setReady => simp [setReadyBit_getLsbD v (1 + i) (by omega)]
  | clearReady => simp [clearReadyBit_getLsbD v (1 + i) (by omega)]
  | putOffHi h => rw [applyReadyUpdate_putOffHi, putOffHi_getLsbD v h (1 + i) (by omega), if_pos (by omega)]

theorem reservedClear_update {d : Dir} {v : Word} (u : ReadyUpdate) (h : reservedClear (readyReg d) v) :
    reservedClear (readyReg d) (applyReadyUpdate u v) := by
  rw [reservedClear_readyReg] at h ⊢
  rw [applyReadyUpdate_reserved, h]

/-- What `reservedZero` says: of each register, and of each word an open block is about to write. -/
theorem State.reservedZero_iff (s : State) :
    s.reservedZero = true ↔ (∀ r, reservedClear r (s.reg r)) ∧
      ∀ d o, s.opened.get d = some o → reservedClear (readyReg d) o.word := by
  simp only [State.reservedZero, Bool.and_eq_true, decide_eq_true_eq, Option.all_eq_true]
  constructor
  · rintro ⟨⟨⟨⟨⟨hr, hw⟩, hro⟩, hwo⟩, hor⟩, how⟩
    refine ⟨fun r => ?_, fun d => ?_⟩
    · cases r with
      | readBufferReady => exact hr
      | writeBufferReady => exact hw
      | readBufferOffset => exact hro
      | writeBufferOffset => exact hwo
      | _ => trivial
    · cases d
      · exact hor
      · exact how
  · rintro ⟨hreg, hopen⟩
    exact ⟨⟨⟨⟨⟨hreg .readBufferReady, hreg .writeBufferReady⟩, hreg .readBufferOffset⟩, hreg .writeBufferOffset⟩,
      hopen .read⟩, hopen .write⟩

theorem State.reservedZero_congr {s s' : State} (hs : s.reservedZero = true) (hcsr : s'.csr = s.csr)
    (hopened : s'.opened = s.opened) : s'.reservedZero = true := by
  rw [State.reservedZero_iff] at hs ⊢
  simpa only [State.reg, hcsr, hopened] using hs

theorem reservedZero_setReg {s : State} {r : SReg} {v : Word} (hs : s.reservedZero = true) (hv : reservedClear r v) :
    (s.setReg r v).reservedZero = true := by
  rw [State.reservedZero_iff] at hs ⊢
  refine hs.imp_left fun hreg r' => ?_
  rw [State.setReg_reg]
  split
  · next e => exact e ▸ hv
  · exact hreg r'

theorem reservedZero_setOpened {s : State} {d : Dir} {x : Option OpenBlock} (hs : s.reservedZero = true)
    (hx : ∀ o, x = some o → reservedClear (readyReg d) o.word) : (s.setOpened d x).reservedZero = true := by
  rw [State.reservedZero_iff] at hs ⊢
  refine hs.imp_right fun hopen d' o ho => ?_
  by_cases e : d' = d
  · subst e; exact hx o (by simpa using ho)
  · exact hopen d' o (by simpa [e] using ho)

/-- An open block writes a word whose reserved bits are zero (R263). -/
theorem reservedZero_closeOpen {s : State} (d : Dir) (hs : s.reservedZero = true) : (closeOpen d s).reservedZero = true := by
  cases ho : s.opened.get d with
  | none => rwa [closeOpen_none ho]
  | some o =>
    obtain ⟨_, hopen⟩ := (State.reservedZero_iff s).1 hs
    rw [closeOpen_some ho]
    exact reservedZero_setOpened (reservedZero_setReg hs (hopen d o ho)) nofun

/-- Freeing a buffer ends an open block, or leaves it (R173; log 21). -/
theorem reservedZero_freeBuffer {s : State} (d : Dir) (hs : s.reservedZero = true) : (freeBuffer d s).reservedZero = true := by
  obtain ⟨hreg, hopen⟩ := (State.reservedZero_iff s).1 hs
  refine (State.reservedZero_iff _).2 ⟨hreg, fun d' o ho => ?_⟩
  rcases freeBuffer_opened_get d d' s with e | ⟨e, _⟩
  · exact hopen d' o (e ▸ ho)
  · rw [e] at ho; cases ho

theorem went_reservedZero {m : Micro} {t t' : Task} {s s' : State} (h : Went t s m t' s') (hm : keepsReserved m = true)
    (hs : s.reservedZero = true) : s'.reservedZero = true := by
  cases h with
  | read r => rcases regRead_state r s with e | e <;> rw [e] <;> exact hs
  | write r v => exact reservedZero_setReg hs ((keepsReserved_write r v).1 hm)
  | resetReg r k => exact reservedZero_setReg hs (reservedClear_zero r)
  | rmw d u =>
    have hclose := reservedZero_closeOpen d hs
    obtain ⟨hreg, _⟩ := (State.reservedZero_iff _).1 hclose
    exact reservedZero_setReg hclose (reservedClear_update u (hreg _))
  | putReady d id =>
    rcases closeBlock_cases d id s with ⟨_, e⟩ | ⟨_, e⟩ <;> rw [e]
    · exact reservedZero_closeOpen d hs
    · exact hs
  | release d => exact reservedZero_freeBuffer d hs
  | resetDirection d k =>
    by_cases hu : s.slot.get d = .unallocated
    · exact State.reservedZero_congr hs (by simp) (by rw [resetDirection_opened, if_pos hu])
    · exact State.reservedZero_congr (reservedZero_freeBuffer d hs) (by simp)
        (by rw [resetDirection_opened, if_neg hu, freeBuffer_opened])
  | _ => exact State.reservedZero_congr hs (by simp) (by simp)

/-- An opened block is about to write the register's word updated (R263). -/
theorem openedTask_reservedZero {t t' : Task} {s s' : State} (h : openedTask t s = some (t', s')) (hs : s.reservedZero = true) :
    s'.reservedZero = true := by
  obtain ⟨_, d, u, rest, _, _, rfl⟩ := openedTask_some h
  have hclose := reservedZero_closeOpen d hs
  obtain ⟨hreg, _⟩ := (State.reservedZero_iff _).1 hclose
  refine reservedZero_setOpened hclose fun o e => ?_
  obtain rfl := Option.some.inj e
  exact reservedClear_update u (hreg _)

theorem partTask_registers {n : Nat} {t t' : Task} {s s' : State} (h : partTask n t s = .ok (some (t', s'))) :
    s'.csr = s.csr ∧ s'.opened = s.opened := by
  rcases (partTask_some h).2 with ⟨i, bs, rest, _, hp, _⟩ | ⟨_, _, _, _, _, rfl, _⟩
  · obtain ⟨b, _, _, rfl⟩ := storePart_ok hp
    simp
  · simp

/-- What takes the place of an opened block, or of a copy in part, is a step that any steps may hold. -/
theorem openedTask_all {p : Micro → Bool} (hp : ∀ d id, p (.putReady d id) = true) {t t' : Task} {s s' : State}
    (ht : t.todo.all p = true) (h : openedTask t s = some (t', s')) : t'.todo.all p = true := by
  obtain ⟨_, d, u, rest, hto, rfl, _⟩ := openedTask_some h
  rw [hto, List.all_cons, Bool.and_eq_true] at ht
  simpa [hp] using ht.2

theorem partTask_all {p : Micro → Bool} (hs : ∀ i bs, p (.storeBytes i bs) = true) (hl : ∀ l, p (.loadBytes l) = true)
    {n : Nat} {t t' : Task} {s s' : State} (ht : t.todo.all p = true) (h : partTask n t s = .ok (some (t', s'))) :
    t'.todo.all p = true := by
  rcases (partTask_some h).2 with ⟨i, bs, rest, hto, _, rfl⟩ | ⟨loaded, rest, data, hto, _, _, rfl⟩ <;>
    rw [hto, List.all_cons, Bool.and_eq_true] at ht
  · simpa [hs] using ht.2
  · simpa [hl] using ht.2

theorem keeps_reservedZero : Keeps keepsReserved fun s => s.reservedZero = true where
  closed := ⟨fun d len v _ => by cases d <;> exact ⟨rfl, rfl⟩, by simp [keepsReserved], by simp [keepsReserved],
    by simp [keepsReserved]⟩
  oneStep hm hs hgo := went_reservedZero (micro_went hgo).2 hm hs
  opening ht hs ho := ⟨openedTask_reservedZero ho hs, openedTask_all (fun _ _ => rfl) ht ho⟩
  part ht hs hp := by
    obtain ⟨hcsr, hopened⟩ := partTask_registers hp
    exact ⟨State.reservedZero_congr hs hcsr hopened, partTask_all (fun _ _ => rfl) (fun _ => rfl) ht hp⟩
  device hs hm := by
    obtain ⟨_, _, _, _, hopened, _⟩ := deviceMove_frame hm
    exact State.reservedZero_congr hs (deviceMove_csr hm) hopened
  signal _ hs := hs
  record _ _ hs := hs
  reaction _ _ hs := hs
  inputs _ _ _ _ _ _ hs := hs

/-! ### The operations and the reserved bits -/

/-- An operation decoded at a surface belongs to it (R95, R108). -/
theorem decode_surface {surface : Surface} {bytes : List Byte} {i : Instr} (h : decode surface bytes = .ok i) :
    i.surface = surface := by
  cases surface with
  | csr =>
    simp only [decode, decodeCsr] at h
    split at h
    · split at h
      · cases h
      · next r _ => split at h <;> cases h <;> rcases r with r | r | r <;> cases r <;> rfl
    · cases h
  | command =>
    simp only [decode, decodeCommand] at h
    split at h
    · simp only [commandOf] at h; split at h <;> cases h <;> rfl
    · cases h
  | procedure =>
    simp only [decode, decodeProcedure] at h
    split at h
    · simp only [procedureOf] at h; split at h <;> cases h <;> rfl
    · cases h
  | event =>
    simp only [decode, decodeEvent] at h
    split at h
    · split at h <;> cases h <;> rfl
    · cases h

/-- A raw write to READY or OFFSET is a register transaction (R46 c). -/
theorem rawReservedWrite_surface {i : Instr} (h : rawReservedWrite i = true) : i.surface = .csr := by
  cases i with
  | csrWrReadBufferReady | csrWrReadBufferOffset | csrWrWriteBufferReady | csrWrWriteBufferOffset => rfl
  | _ => cases h

/-- Only a raw write to READY or OFFSET stores other reserved bits (R105): SET_d_OFFSET writes a half-word (R90). -/
theorem stepsOf_keepsReserved {i : Instr} (s : State) (h : rawReservedWrite i = false) :
    (stepsOf i s).all keepsReserved = true := by
  have hoff : ∀ (d : Dir) (o : DWord), (setOffsetSteps d o).all keepsReserved = true := by
    intro d o
    have hlow : reservedClear (offsetReg d) ((offsetLo o).setWidth 32) := by
      rw [reservedClear_offsetReg]
      apply BitVec.eq_of_getLsbD_eq
      intro j hj
      simp [hj]
    have hwrite := (keepsReserved_write _ _).2 hlow
    simp only [setOffsetSteps, List.all_cons, hwrite]
    rfl
  cases i with
  | setReadOffset o | setWriteOffset o | seek o => exact hoff _ o
  | csrWrReadBufferReady | csrWrReadBufferOffset | csrWrWriteBufferReady | csrWrWriteBufferOffset => cases h
  | _ => rfl

/-! ### RESET_ALL's writes (R214) -/

/-- The state after a value has been written to each of some registers, in order. -/
def writeAll (rs : List SReg) (v : Word) (s : State) : State := rs.foldl (fun u r => u.setReg r v) s

@[simp] theorem writeAll_nil (v : Word) (s : State) : writeAll [] v s = s := rfl

@[simp] theorem writeAll_cons (r : SReg) (rs : List SReg) (v : Word) (s : State) :
    writeAll (r :: rs) v s = writeAll rs v (s.setReg r v) := rfl

/-- A register after the writes: the value where it was written, what it held elsewhere. -/
theorem writeAll_reg (rs : List SReg) (v : Word) (s : State) (r : SReg) :
    (writeAll rs v s).reg r = if r ∈ rs then v else s.reg r := by
  induction rs generalizing s with
  | nil => simp
  | cons r' rs ih =>
    rw [writeAll_cons, ih, State.setReg_reg]
    by_cases h : r = r' <;> by_cases h' : r ∈ rs <;> simp [h, h']

@[simp] theorem writeAll_opened (rs : List SReg) (v : Word) (s : State) : (writeAll rs v s).opened = s.opened := by
  induction rs generalizing s with
  | nil => rfl
  | cons r rs ih => rw [writeAll_cons, ih, State.setReg_opened]

/-- A turn long enough makes all of an operation's writes and ends it. -/
theorem runMicros_writes {rs : List SReg} {v : Word} {n : Nat} {t : Task} {s : State} (hn : rs.length ≤ n)
    (hh : t.holds = none) (ht : t.todo = rs.map fun r => .write (.s r) v) :
    runMicros (n + 1) t s = .done (makeResult t.fin t.vals) t.dst (writeAll rs v s) := by
  induction rs generalizing n t s with
  | nil => exact runMicros_nil n t s ht
  | cons r rs ih =>
    have ht : t.todo = .write (.s r) v :: rs.map fun r => .write (.s r) v := ht
    have hlive : live { t with todo := rs.map fun r => .write (.s r) v } s = true := live_none hh
    have hm := (micro_live (m := .write (.s r) v) hlive).trans (went_act (.write r v))
    cases rs with
    | nil => rw [runMicros_last ht hm rfl]; rfl
    | cons r' rs =>
      obtain ⟨n, rfl⟩ : ∃ m, n = m + 1 := ⟨n - 1, by simp only [List.length_cons] at hn; omega⟩
      rw [runMicros_more ht hm (by simp)]
      exact ih (by simpa using hn) hh rfl

/-- RESET_ALL of an idle caller, not preempted (R214; log 24). -/
theorem exec_resetAll {s : State} (hi : s.idle s.caller = true) (hq : s.quantum = none) :
    exec .resetAll s = .next ((writeAll resetRegs 0 s).returns s.caller .ok none) := by
  simp only [exec, execResetAll, beginOperation_idle hi, runCallerTask, turnLength_none hq]
  rw [runMicros_writes (rs := resetRegs) (v := 0) (by decide) rfl rfl]
  rfl

/-- RESET_ALL zeroes the registers with reserved bits. -/
theorem reservedZero_writeAll_resetRegs {s : State} (ho : ∀ d, s.opened.get d = none) :
    (writeAll resetRegs 0 s).reservedZero = true := by
  refine (State.reservedZero_iff _).2 ⟨fun r => ?_, fun d o h => by simp [ho] at h⟩
  rw [writeAll_reg]
  cases r with
  | readBufferAddr | writeBufferAddr => trivial
  | _ => exact reservedClear_zero _

/-- Settles O56: RESET_ALL by its writes, and `keeps_reservedZero` over the machine's moves. -/
theorem reservedBitsStayZero : Obligations.ReservedBitsStayZero := by
  refine ⟨fun s hi hq hr hw => ⟨_, exec_resetAll hi hq, ?_⟩, fun s t hs hall hraw h => ?_⟩
  · exact State.reservedZero_congr (reservedZero_writeAll_resetRegs (s := s) fun d => by cases d <;> assumption) rfl rfl
  · refine keeps_reservedZero.machineStep hs hall (fun rest surface bytes i k hsch hd he => ?_)
      (fun k _ _ => by simp [sessionResetSteps, resetRegs, keepsReserved]) h
    have hi : rawReservedWrite i = false := by
      rw [Bool.eq_false_iff]
      intro hi
      obtain rfl : surface = .csr := (decode_surface hd).symm.trans (rawReservedWrite_surface hi)
      rcases hsch with hsch | ⟨hsch, _⟩
      · rw [hraw k bytes rest i hsch hd] at hi; cases hi
      · rw [step_issueByEvent hsch hd, if_neg] at h
        · cases h
        · intro hev
          have hsurface := rawReservedWrite_surface hi
          rcases (eventOnly_iff i).1 hev with e | ⟨d, rfl⟩
          · rw [e] at hsurface; cases hsurface
          · cases hsurface
    exact keeps_reservedZero.exec (s := { s with schedule := rest, caller := k }) (stepsOf_keepsReserved _ hi) hs hall he

/-! ## The published buffer stays offered (R46, R170, R171) -/

/-! ### BEGIN_TRANSFER and MARK_READY, not preempted -/

/-- A step after which steps are left, where the transfer it uses is live. -/
theorem runMicros_went {n : Nat} {m : Micro} {t t' : Task} {s s' : State} (hl : needsTransfer m = false ∨ live t s = true)
    (h : Went t s m t' s') (hne : t'.todo ≠ []) : runMicros (n + 1) { t with todo := m :: t.todo } s = runMicros n t' s' :=
  runMicros_more rfl (went_micro hl h) hne

/-- The last step of an operation, where the transfer it uses is live. -/
theorem runMicros_went_last {n : Nat} {m : Micro} {t t' : Task} {s s' : State} (hl : needsTransfer m = false ∨ live t s = true)
    (h : Went t s m t' s') (he : t'.todo = []) :
    runMicros (n + 1) { t with todo := m :: t.todo } s = .done (makeResult t'.fin t'.vals) t'.dst s' :=
  runMicros_last rfl (went_micro hl h) he

/-- The state after BEGIN_TRANSFER.d of caller `k` has installed a buffer, written ADDR_d and SIZE_d and returned the
handle (R170). -/
def begun (d : Dir) (len dev : Word) (host k : Nat) (s : State) : State :=
  (((install d (freshBuffer len dev host s) s).setReg (addrReg d) dev).setReg (sizeReg d) len).setHandle d
    (some { owner := sessionOf k, awaited := false })

/-- BEGIN_TRANSFER.d of an idle caller, not preempted, where the allocator answers (R170). -/
theorem exec_beginTransfer {d : Dir} {len : DWord} {dev : Word} {host : Nat} {s : State} (hi : s.idle s.caller = true)
    (hq : s.quantum = none) (hlen : lengthTooLong len = false) (hslot : s.slot.get d = .unallocated)
    (hpos : len.setWidth 32 ≠ (0 : Word)) (ha : s.allocator = some (dev, host)) :
    exec (.beginTransfer d len) s =
      .next ((begun d (len.setWidth 32) dev host s.caller s).returns s.caller (.handle d) none) := by
  simp only [exec, execBeginTransfer, hlen, Bool.false_eq_true, if_false, beginOperation_idle hi, runCallerTask, turnLength_none hq]
  have hlive : ∀ (u : State) (todo : List Micro), u.buf.get d = some (freshBuffer (len.setWidth 32) dev host s) →
      live { newTask todo (.const (.handle d)) with holds := some (d, s.draws) } u = true :=
    fun u todo hb => (live_some rfl).2 ⟨_, hb, rfl⟩
  have hrun : runMicros 16 (newTask [.claim d (len.setWidth 32), .giveHandle d s.caller] (.const (.handle d))) s =
      .done (.handle d) none (begun d (len.setWidth 32) dev host s.caller s) := by
    refine (runMicros_went (t := newTask [.giveHandle d s.caller] _) (.inl rfl)
      (.claim d (len.setWidth 32) dev host hslot hpos ha) (by simp)).trans ?_
    refine (runMicros_went (t := { newTask [_, .giveHandle d s.caller] _ with holds := some (d, s.draws) })
      (.inr (hlive _ _ (by simp))) (.write (addrReg d) dev) (by simp [newTask])).trans ?_
    refine (runMicros_went (t := { newTask [.giveHandle d s.caller] _ with holds := some (d, s.draws) })
      (.inr (hlive _ _ (by simp))) (.write (sizeReg d) (len.setWidth 32)) (by simp [newTask])).trans ?_
    exact runMicros_went_last (t := { newTask [] _ with holds := some (d, s.draws) })
      (.inr (hlive _ _ (by simp))) (.giveHandle d s.caller (by simp)) rfl
  rw [hrun]
  rfl

/-- BEGIN_TRANSFER.d that returns its handle had a length in the domain, a nonzero one, and an answer of the allocator (R170,
R243). -/
theorem exec_beginTransfer_next {d : Dir} {len : DWord} {s t : State} (hslot : s.slot.get d = .unallocated)
    (h : exec (.beginTransfer d len) s = .next t) (hr : (t.callerOf s.caller).result = some (.handle d)) :
    s.idle s.caller = true ∧ lengthTooLong len = false ∧ len.setWidth 32 ≠ (0 : Word) ∧
      ∃ dev host, s.allocator = some (dev, host) := by
  simp only [exec, execBeginTransfer] at h
  split at h
  · cases h
  · next hlen =>
    obtain ⟨hi, _⟩ := beginOperation_next h
    have hok : ¬ (len.setWidth 32 = (0 : Word) ∨ s.allocator = none) := by
      intro hfail
      rw [beginOperation_raise hi ((micro_free (m := .claim d (len.setWidth 32)) rfl).trans (claim_failed hslot hfail))] at h
      cases h
      simp at hr
    rw [not_or] at hok
    obtain ⟨hpos, ha⟩ := hok
    obtain ⟨⟨dev, host⟩, ha⟩ := Option.ne_none_iff_exists'.1 ha
    exact ⟨hi, by simpa using hlen, hpos, dev, host, ha⟩

/-- MARK_READY.d of an idle caller that owns the handle, not preempted (R171; log 24). -/
theorem exec_markReady {d : Dir} {b : Buffer} {s : State} (hi : s.idle s.caller = true) (hq : s.quantum = none)
    (ho : s.opened.get d = none) (hslot : s.slot.get d = .published) (hb : s.buf.get d = some b)
    (howns : ownsHandle d s.caller s = true) :
    exec (.markReady d) s =
      .next (((updateReady d .setReady s).setSlot d .awaitingCompletion).returns s.caller .ok none) := by
  simp only [exec, execMarkReady, beginOperation_idle hi, runCallerTask, turnLength_none hq]
  have hlive : ∀ (u : State) (todo : List Micro), u.buf.get d = some b →
      live { newTask todo (.const .ok) with holds := transferOf d s } u = true :=
    fun u todo hu => (live_some (by simp only [transferOf, hb, Option.map_some])).2 ⟨b, hu, rfl⟩
  have hrun : runMicros 16 (newTask [.checkPublished d s.caller, .rmw d .setReady, .awaitCompletion d] (.const .ok)) s =
      .done .ok none ((updateReady d .setReady s).setSlot d .awaitingCompletion) := by
    refine (runMicros_went (t := newTask [.rmw d .setReady, .awaitCompletion d] _) (.inr (live_none rfl))
      (.checkPublished d s.caller hslot howns) (by simp [newTask])).trans ?_
    refine (runMicros_went (t := { newTask [.awaitCompletion d] _ with holds := transferOf d s }) (.inr (hlive _ _ hb))
      (.rmw d .setReady) (by simp [newTask])).trans ?_
    rw [closeOpen_none ho]
    exact runMicros_went_last (t := { newTask [] _ with holds := transferOf d s }) (.inr (hlive _ _ (by simpa using hb)))
      (.awaitCompletion d (by simpa using hslot)) rfl
  rw [hrun]
  rfl

/-- After BEGIN_TRANSFER.d and MARK_READY.d the buffer is offered (R46 d, R170, R171). -/
theorem offered_after_markReady {d : Dir} {len : DWord} {s t u : State} (hq : s.quantum = none) (ho : s.opened.get d = none)
    (hslot : s.slot.get d = .unallocated) (hbegin : exec (.beginTransfer d len) s = .next t)
    (hresult : (t.callerOf s.caller).result = some (.handle d)) (hmark : exec (.markReady d) t = .next u) :
    u.slot.get d = .awaitingCompletion ∧ ∃ b, u.buf.get d = some b ∧ u.offered d b := by
  obtain ⟨hi, hlen, hpos, dev, host, ha⟩ := exec_beginTransfer_next hslot hbegin hresult
  rw [exec_beginTransfer hi hq hlen hslot hpos ha] at hbegin
  cases hbegin
  rw [exec_markReady (b := freshBuffer (len.setWidth 32) dev host s) (by simp [begun]) rfl (by simpa [begun] using ho)
    (by simp [begun]) (by simp [begun]) (by simp [begun, ownsHandle])] at hmark
  cases hmark
  refine ⟨by simp, freshBuffer (len.setWidth 32) dev host s, by simp [begun], ?_, ?_, ?_⟩
  · rw [State.ready, returns_reg, State.setSlot_reg, updateReady_reg_same, applyReadyUpdate_bit0]
  · rw [returns_reg, State.setSlot_reg, updateReady_reg_other _ _ _ _ (readyReg_ne_addrReg d d).symm, returns_reg, begun,
      State.setHandle_reg, State.setReg_reg_other _ _ _ _ (addrReg_ne_sizeReg d d), State.setReg_reg_same]
    rfl
  · rw [returns_reg, State.setSlot_reg, updateReady_reg_other _ _ _ _ (readyReg_ne_sizeReg d d).symm, returns_reg, begun,
      State.setHandle_reg, State.setReg_reg_same]
    rfl

/-! ### What withdraws it -/

/-- The buffer `b` published in `d` has been released and no other begun, or it is offered still, also after an open block's write
(R46 d; log 11). -/
def stillOffered (d : Dir) (b : Buffer) (s : State) : Prop :=
  s.slot.get d = .unallocated ∨
    (s.slot.get d = .awaitingCompletion ∧ (∃ b', s.buf.get d = some b' ∧ b'.len = b.len ∧ b'.devAddr = b.devAddr) ∧
      readySettled d true s ∧ s.reg (addrReg d) = b.devAddr ∧ (s.reg (sizeReg d)).toNat = b.len)

/-- `stillOffered` speaks of the direction's slot, buffer, ready bit, open block, ADDR_d and SIZE_d only. -/
theorem stillOffered_congr {d : Dir} {b : Buffer} {s s' : State} (hs : stillOffered d b s) (hslot : s'.slot.get d = s.slot.get d)
    (hbuf : ∀ b₀, s.buf.get d = some b₀ → ∃ b', s'.buf.get d = some b' ∧ b'.len = b₀.len ∧ b'.devAddr = b₀.devAddr)
    (hready : readySettled d true s → readySettled d true s') (haddr : s'.reg (addrReg d) = s.reg (addrReg d))
    (hsize : s'.reg (sizeReg d) = s.reg (sizeReg d)) : stillOffered d b s' := by
  rcases hs with hs | ⟨haw, ⟨b₀, hb, hlen, hdev⟩, hr, ha, hz⟩
  · exact .inl (hslot.trans hs)
  · obtain ⟨b', hb', hlen', hdev'⟩ := hbuf b₀ hb
    exact .inr ⟨hslot.trans haw, ⟨b', hb', hlen'.trans hlen, hdev'.trans hdev⟩, hready hr, haddr ▸ ha, hsize ▸ hz⟩

/-- `stillOffered` where the state of the direction is the same. -/
theorem stillOffered_of_same {d : Dir} {b : Buffer} {s s' : State} (hs : stillOffered d b s) (hslot : s'.slot = s.slot)
    (hbuf : s'.buf = s.buf) (hcsr : s'.csr = s.csr) (hopened : s'.opened = s.opened) : stillOffered d b s' := by
  unfold stillOffered readySettled State.ready State.reg at hs ⊢
  rwa [hslot, hbuf, hcsr, hopened]

/-- A store leaves the buffer's length and address. -/
theorem stillOffered_store {d d' : Dir} {b b₀ : Buffer} {i : Nat} {bs : List Byte} {s : State} (hs : stillOffered d b s)
    (hb : s.buf.get d' = some b₀) : stillOffered d b (s.setBuf d' (some (b₀.store i bs))) := by
  refine stillOffered_congr hs rfl (fun b₁ h => ?_) id rfl rfl
  by_cases e : d = d'
  · subst e
    obtain rfl := Option.some.inj (hb.symm.trans h)
    exact ⟨b₀.store i bs, by simp, rfl, rfl⟩
  · exact ⟨b₁, by simpa [e] using h, rfl, rfl⟩

theorem turnsReady_of_keepsOffered {d : Dir} {m : Micro} (h : keepsOffered d m = true) : turnsReady d false m = false := by
  cases m with
  | rmw d' u => cases u <;> simp_all [keepsOffered, turnsReady]
  | write r v => cases r <;> simp_all [keepsOffered, turnsReady]
  | resetReg r k => simp_all [keepsOffered, turnsReady]
  | _ => rfl

theorem addr_size_of_keepsOffered {d : Dir} {m : Micro} (h : keepsOffered d m = true) :
    addrReg d ∉ writtenBy m ∧ sizeReg d ∉ writtenBy m := by
  have haddr : ∀ d', addrReg d ≠ readyReg d' := fun d' => (readyReg_ne_addrReg d' d).symm
  have hsize : ∀ d', sizeReg d ≠ readyReg d' := fun d' => (readyReg_ne_sizeReg d' d).symm
  have one : ∀ r, r ≠ readyReg d ∧ r ≠ addrReg d ∧ r ≠ sizeReg d → addrReg d ∉ [r] ∧ sizeReg d ∉ [r] := by
    rintro r ⟨_, ha, hz⟩
    exact ⟨by simpa using ha.symm, by simpa using hz.symm⟩
  cases m with
  | rmw | putReady => simp [writtenBy, haddr, hsize]
  | write r v =>
    cases r with
    | s r => exact one r (of_decide_eq_true h)
    | _ => simp [writtenBy]
  | resetReg r k => exact one r (of_decide_eq_true h)
  | claim d' len =>
    have hd : d ≠ d' := by rintro rfl; simp [keepsOffered] at h
    simp [writtenBy, hd, (addrReg_ne_sizeReg d' d).symm]
  | _ => simp [writtenBy]

/-- A step that does not withdraw the buffer leaves the slot as it is, or releases it (R40). -/
theorem slot_of_keepsOffered {d : Dir} {m : Micro} {t t' : Task} {s s' : State} (hm : keepsOffered d m = true)
    (h : micro m t s = .go t' s') (hs : s.slot.get d ≠ .published) :
    s'.slot.get d = s.slot.get d ∨ s'.slot.get d = .unallocated := by
  by_cases e : s'.slot.get d = s.slot.get d
  · exact .inl e
  · rcases slotTransitions m t t' s s' d h e with ⟨_, _, len, rfl⟩ | ⟨hp, _⟩ | ⟨_, hu, _⟩
    · simp [keepsOffered] at hm
    · exact absurd hp hs
    · exact .inr hu

/-- A step changes a buffer that stays in its slot in its bytes only (R61, R62). -/
theorem went_buf_kept {d : Dir} {m : Micro} {t t' : Task} {s s' : State} {b : Buffer} (h : Went t s m t' s')
    (hslot : s.slot.get d ≠ .unallocated) (hslot' : s'.slot.get d ≠ .unallocated) (hb : s.buf.get d = some b) :
    ∃ b', s'.buf.get d = some b' ∧ b'.len = b.len ∧ b'.devAddr = b.devAddr := by
  have other : ∀ {d' : Dir} {x : Option Buffer}, d ≠ d' → ∃ b', (s.buf.set d' x).get d = some b' ∧ b'.len = b.len ∧
      b'.devAddr = b.devAddr := fun hd => ⟨b, by rw [PerDir.get_set_other _ _ _ _ hd, hb], rfl, rfl⟩
  cases h with
  | read r => exact ⟨b, by rcases regRead_state r s with e | e <;> simpa [e] using hb, rfl, rfl⟩
  | claim d' len dev host slot => exact other (by rintro rfl; exact hslot slot)
  | storeBytes i bs b₀ buf inside =>
    by_cases hd : d = .write
    · subst hd
      obtain rfl := Option.some.inj (buf.symm.trans hb)
      exact ⟨_, PerDir.get_set_same s.buf .write _, rfl, rfl⟩
    · exact other hd
  | release d' => exact other (by rintro rfl; simp at hslot')
  | resetDirection d' k =>
    have hd : d ≠ d' := by rintro rfl; simp at hslot'
    rw [resetDirection_buf]
    split
    · exact ⟨b, hb, rfl, rfl⟩
    · exact other hd
  | _ => exact ⟨b, by simpa using hb, rfl, rfl⟩

theorem oneStep_stillOffered {d : Dir} {b : Buffer} {m : Micro} {t t' : Task} {s s' : State} (hm : keepsOffered d m = true)
    (hs : stillOffered d b s) (h : micro m t s = .go t' s') : stillOffered d b s' := by
  have hwent := (micro_went h).2
  have hslot : s'.slot.get d = s.slot.get d ∨ s'.slot.get d = .unallocated :=
    slot_of_keepsOffered hm h (by rcases hs with e | ⟨e, _⟩ <;> rw [e] <;> nofun)
  rcases hslot with hslot | hslot
  · obtain ⟨haddr, hsize⟩ := addr_size_of_keepsOffered hm
    rcases hs with hs | ⟨haw, hb, hr, ha, hz⟩
    · exact .inl (hslot.trans hs)
    · refine stillOffered_congr (.inr ⟨haw, hb, hr, ha, hz⟩) hslot (fun b₀ hb₀ => ?_)
        (went_readySettled hwent (turnsReady_of_keepsOffered hm)) (went_reg hwent haddr) (went_reg hwent hsize)
      exact went_buf_kept hwent (by simp [haw]) (by simp [hslot, haw]) hb₀
  · exact .inl hslot

/-- Opening a block that does not clear the ready bit leaves the bit set in the word the block will write (R263). -/
theorem openedTask_stillOffered {d : Dir} {b : Buffer} {t t' : Task} {s s' : State} (ht : t.todo.all (keepsOffered d) = true)
    (hs : stillOffered d b s) (h : openedTask t s = some (t', s')) : stillOffered d b s' := by
  obtain ⟨_, d', u, rest, hto, _, rfl⟩ := openedTask_some h
  refine stillOffered_congr hs (by simp) (fun b₀ hb => ⟨b₀, by simpa using hb, rfl, rfl⟩) (fun hr => ?_) ?_ ?_
  · by_cases hd : d = d'
    · subst hd
      have hclose := closeOpen_ready hr
      refine ⟨hclose, fun o ho => ?_⟩
      obtain rfl : _ = o := by simpa using ho
      rw [applyReadyUpdate_bit0]
      cases u with
      | setReady => rfl
      | clearReady => simp [hto, keepsOffered] at ht
      | putOffHi h => exact hclose
    · obtain ⟨hready, hopen⟩ := hr
      refine ⟨?_, fun o ho => hopen o (by simpa [hd] using ho)⟩
      rw [State.ready, State.drawn_reg, State.setOpened_reg, closeOpen_reg_other _ _ _ (by simpa using hd)]
      exact hready
  · rw [State.drawn_reg, State.setOpened_reg, closeOpen_reg_other _ _ _ (readyReg_ne_addrReg d' d).symm]
  · rw [State.drawn_reg, State.setOpened_reg, closeOpen_reg_other _ _ _ (readyReg_ne_sizeReg d' d).symm]

theorem partTask_stillOffered {d : Dir} {b : Buffer} {n : Nat} {t t' : Task} {s s' : State} (hs : stillOffered d b s)
    (h : partTask n t s = .ok (some (t', s'))) : stillOffered d b s' := by
  rcases (partTask_some h).2 with ⟨i, bs, rest, _, hp, _⟩ | ⟨_, _, _, _, _, rfl, _⟩
  · obtain ⟨b₀, hb, _, rfl⟩ := storePart_ok hp
    exact stillOffered_store hs hb
  · exact hs

/-- A device move stores bytes at most (R7). -/
theorem deviceMove_stillOffered {d : Dir} {b : Buffer} {m : DeviceMove} {s t : State} (hs : stillOffered d b s)
    (h : deviceMove m s = .next t) : stillOffered d b t := by
  obtain ⟨hslot, _, _, _, hopened, hbufw⟩ := deviceMove_frame h
  cases m with
  | fill off bytes =>
    obtain ⟨b₀, hb, _, rfl⟩ := deviceFill_next h
    exact stillOffered_store hs hb
  | _ =>
    obtain ⟨_, _, hbufr, _⟩ := deviceMove_changes h
    exact stillOffered_of_same hs hslot (PerDir.ext_fields (hbufr (by simp)) hbufw) (deviceMove_csr h) hopened

theorem keeps_stillOffered (d : Dir) (b : Buffer) : Keeps (keepsOffered d) (stillOffered d b) where
  closed := by
    refine ⟨fun d' len v h => ?_, by simp [keepsOffered], by simp [keepsOffered], by simp [keepsOffered]⟩
    have hd : d' ≠ d := by simpa [keepsOffered] using h
    simp [keepsOffered, hd, (readyReg_ne_addrReg d d').symm, (readyReg_ne_sizeReg d d').symm, (addrReg_ne_sizeReg d d').symm]
  oneStep hm hs hgo := oneStep_stillOffered hm hs hgo
  opening ht hs ho := ⟨openedTask_stillOffered ht hs ho, openedTask_all (fun _ _ => rfl) ht ho⟩
  part ht hs hp := ⟨partTask_stillOffered hs hp, partTask_all (fun _ _ => rfl) (fun _ => rfl) ht hp⟩
  device hs hm := deviceMove_stillOffered hs hm
  signal _ hs := hs
  record _ _ hs := hs
  reaction _ _ hs := hs
  inputs _ _ _ _ _ _ hs := hs

/-- An operation that withdraws nothing has no step that does, or begins by claiming the slot (R170). -/
theorem stepsOf_keepsOffered {d : Dir} {i : Instr} (s : State) (h : withdraws d i = false) :
    (stepsOf i s).all (keepsOffered d) = true ∨ ∃ len rest, stepsOf i s = .claim d len :: rest := by
  have hoffset : ∀ d' o, (setOffsetSteps d' o).all (keepsOffered d) = true := by
    intro d' o
    simp [setOffsetSteps, keepsOffered, (readyReg_ne_offsetReg d d').symm, (addrReg_ne_offsetReg d d').symm,
      (sizeReg_ne_offsetReg d d').symm]
  cases i with
  | setReadOffset o | setWriteOffset o | seek o => exact .inl (hoffset _ o)
  | beginTransfer d' len =>
    by_cases hd : d' = d
    · subst hd; exact .inr ⟨_, _, rfl⟩
    · simp [stepsOf, keepsOffered, hd]
  | read n | write n =>
    cases d with
    | read => simp [stepsOf, keepsOffered]
    | write => simp [stepsOf, keepsOffered]
  | resetAll => cases h
  | csrWrReadBufferReady | csrWrReadBufferAddr | csrWrReadBufferSize | evReadComplete =>
    have hd : d ≠ .read := of_decide_eq_false h
    cases d with
    | read => exact absurd rfl hd
    | write => exact .inl rfl
  | csrWrWriteBufferReady | csrWrWriteBufferAddr | csrWrWriteBufferSize | evWriteComplete =>
    have hd : d ≠ .write := of_decide_eq_false h
    cases d with
    | read => exact .inl rfl
    | write => exact absurd rfl hd
  | abort d' =>
    have hd : d' ≠ d := of_decide_eq_false h
    simp [stepsOf, abortSteps, keepsOffered, hd]
  | _ => cases d <;> exact .inl rfl

/-- A claim of a slot that is taken ends the operation with an error and nothing changed (R242). -/
theorem exec_claim_inFlight {d : Dir} {i : Instr} {len : Word} {rest : List Micro} {s t : State}
    (hi : stepsOf i s = .claim d len :: rest) (hslot : s.slot.get d ≠ .unallocated) (h : exec i s = .next t) :
    ∃ r dst, t = s.returns s.caller r dst := by
  rcases exec_next h with ⟨d', rfl, _⟩ | ⟨_, _, rfl⟩ | ⟨fin, _, _, h⟩ | ⟨l, rfl, _⟩
  · cases hi
  · exact ⟨_, _, rfl⟩
  · obtain ⟨n, hn⟩ := turnLength_pos s
    have hraise := (micro_free (m := .claim d len) (t := { taskOf i s fin with todo := rest }) rfl).trans (claim_inFlight hslot)
    rw [runCallerTask, hn, runMicros_raise (rest := rest) hi hraise] at h
    cases h
    exact ⟨_, _, rfl⟩
  · cases l <;> cases hi

/-- Settles O57: the two procedures run, and `keeps_stillOffered` over the machine's moves; an operation that claims the taken slot
ends at once. -/
theorem publishedBufferStaysOffered : Obligations.PublishedBufferStaysOffered := by
  refine ⟨fun d len s t u hq ho hslot hbegin hresult hmark => offered_after_markReady hq ho hslot hbegin hresult hmark,
    fun d b s t haw hbuf hoffered hnothing h haw' => ?_⟩
  obtain ⟨hready, haddr, hsize⟩ := hoffered
  obtain ⟨hmove, hall, hopen⟩ := hnothing
  have hs : stillOffered d b s := .inr ⟨haw, ⟨b, hbuf, rfl, rfl⟩, ⟨hready, hopen⟩, haddr, hsize⟩
  have key := (keeps_stillOffered d b).machineStep hs hall (fun rest surface bytes i k hsch hd he => ?_)
    (fun k rest hsch => ?_) h
  · rcases key.1 with hu | ⟨_, ⟨b', hb', hlen, hdev⟩, ⟨hready', _⟩, haddr', hsize'⟩
    · rw [hu] at haw'; cases haw'
    · exact ⟨b', hb', hlen, hdev, hready', haddr'.trans hdev.symm, hsize'.trans hlen.symm⟩
  · have hi : withdraws d i = false := by
      rcases hsch with e | ⟨e, _⟩ <;> simpa [moveWithdraws, hd] using hmove _ _ e
    rcases stepsOf_keepsOffered { s with schedule := rest, caller := k } hi with hsteps | ⟨len, rest', hsteps⟩
    · exact (keeps_stillOffered d b).exec hsteps hs hall he
    · obtain ⟨r, dst, rfl⟩ := exec_claim_inFlight hsteps (by simp [haw]) he
      exact ⟨hs, allSteps_setCaller (s := { s with schedule := rest, caller := k }) hall nofun⟩
  · cases hmove _ _ hsch

end Sys2Proof.Machine
end

section
/-! Proofs for 20_memory.md: stores into buffer memory (R61, R62, R67) and the byte view of the register region (R64). -/

namespace Sys2Proof.Machine

/-! ## Buffer memory (R61, R62, R67) -/

@[simp] theorem State.setBuf_setBuf (s : State) (d : Dir) (x y : Option Buffer) : (s.setBuf d x).setBuf d y = s.setBuf d y := by
  simp [State.setBuf]

/-- `memWrite` is defined exactly inside a live buffer, and then stores the bytes there (R62). -/
theorem memWrite_eq_ok_iff {s t : State} {d : Dir} {i : Nat} {bs : List Byte} :
    memWrite s d i bs = .ok t ↔
      ∃ b, s.buf.get d = some b ∧ i + bs.length ≤ b.len ∧ t = s.setBuf d (some (b.store i bs)) := by
  refine ⟨memWrite_ok, ?_⟩
  rintro ⟨b, hb, hi, rfl⟩
  simp only [memWrite, hb, if_pos hi]

/-- `memRead` is defined exactly inside a live buffer, and then gives the buffer's bytes (R62). -/
theorem memRead_eq_ok_iff {s : State} {d : Dir} {i n : Nat} {bs : List Byte} :
    memRead s d i n = .ok bs ↔ ∃ b, s.buf.get d = some b ∧ i + n ≤ b.len ∧ bs = b.bytes i n := by
  cases hb : s.buf.get d with
  | none => simp [memRead, hb]
  | some b => by_cases hi : i + n ≤ b.len <;> simp [memRead, hb, hi, eq_comm]

/-- A store ends as the store of its first `m` bytes and then, right behind them, of the others (R67). -/
theorem Buffer.store_take_drop (b : Buffer) (i m : Nat) (bs : List Byte) :
    (b.store i (bs.take m)).store (i + (bs.take m).length) (bs.drop m) = b.store i bs := by
  rw [← Buffer.store_append, List.take_append_drop]

/-- A successful store is read back and changes no byte outside its range (R62). -/
theorem memWrite_readBack_frame {s t : State} {d : Dir} {i : Nat} {bs : List Byte} (h : memWrite s d i bs = .ok t) :
    ∃ b, s.buf.get d = some b ∧ i + bs.length ≤ b.len ∧ memRead t d i bs.length = .ok bs ∧
      ∀ d' a, d' ≠ d ∨ a < b.hostAddr + i ∨ b.hostAddr + i + bs.length ≤ a → t.bufferByte d' a = s.bufferByte d' a := by
  obtain ⟨b, hb, hi, rfl⟩ := memWrite_ok h
  refine ⟨b, hb, hi, memRead_store hi, fun d' a ha => ?_⟩
  by_cases hd : d' = d
  · subst hd
    exact bufferByte_store_outside hb (ha.resolve_left fun hne => hne rfl)
  · exact bufferByte_of_buf (PerDir.get_set_other _ _ _ _ hd) a

/-- A store may be made in two parts, cut anywhere (R67). -/
theorem memWrite_take_drop {s t : State} {d : Dir} {i : Nat} {bs : List Byte} (m : Nat) (h : memWrite s d i bs = .ok t) :
    ∃ u, memWrite s d i (bs.take m) = .ok u ∧ memWrite u d (i + (bs.take m).length) (bs.drop m) = .ok t := by
  obtain ⟨b, hb, hi, rfl⟩ := memWrite_ok h
  have hlen : (bs.take m).length + (bs.drop m).length = bs.length := by
    rw [← List.length_append, List.take_append_drop]
  refine ⟨_, memWrite_eq_ok_iff.2 ⟨b, hb, by omega, rfl⟩,
    memWrite_eq_ok_iff.2 ⟨b.store i (bs.take m), by simp, by rw [Buffer.store_len]; omega, ?_⟩⟩
  rw [State.setBuf_setBuf, Buffer.store_take_drop]

/-- Settles O32: the read-back, frame and cut of a store, and the two conditions for an access to be defined. -/
theorem bufferStoreFrame : Obligations.BufferStoreFrame :=
  ⟨fun _ _ _ _ _ => memWrite_readBack_frame,
    fun _ _ _ _ => by simp [memWrite_eq_ok_iff],
    fun _ _ _ _ => by simp [memRead_eq_ok_iff],
    fun _ _ _ _ m _ => memWrite_take_drop m⟩

/-! ## The register region (R45, R64, R97) -/

/-- Every slot stands at a multiple of 4, where its word index names it again (R97). -/
theorem regAtIndex_offset (r : Reg) : r.offset % 4 = 0 ∧ regAtIndex (r.offset / 4) = some r := by
  rcases r with r | r | r <;> cases r <;> exact ⟨rfl, rfl⟩

/-- The four bytes from a slot's offset on are the slot's, and no other slot's (R64, R97). -/
theorem regAtIndex_offset_add (r : Reg) {j : Nat} (hj : j < 4) :
    regAtIndex ((r.offset + j) / 4) = some r ∧ (r.offset + j) % 4 = j := by
  obtain ⟨haligned, hindex⟩ := regAtIndex_offset r
  have hdiv : (r.offset + j) / 4 = r.offset / 4 := by omega
  exact ⟨hdiv ▸ hindex, by omega⟩

/-- Byte `j` of a class S register in the byte view (R64). -/
theorem regionByte_sReg (s : State) (r : SReg) {j : Nat} (hj : j < 4) :
    s.regionByte ((Reg.s r).offset + j) = some (byteOf (s.reg r) j) := by
  obtain ⟨hindex, hbyte⟩ := regAtIndex_offset_add (.s r) hj
  simp only [State.regionByte, hindex, hbyte]

/-- Byte `j` of a class D register in the byte view (R64). -/
theorem regionByte_dReg (s : State) (r : DReg) {j : Nat} (hj : j < 4) :
    s.regionByte ((Reg.d r).offset + j) = some (byteOf (s.devStatus r) j) := by
  obtain ⟨hindex, hbyte⟩ := regAtIndex_offset_add (.d r) hj
  simp only [State.regionByte, hindex, hbyte]

/-- Settles O12: the bytes by the word index of their slot, the offsets read off the slot table. -/
theorem registerRegionLayout : Obligations.RegisterRegionLayout :=
  ⟨fun s _ hj => ⟨fun r => regionByte_sReg s r hj, fun r => regionByte_dReg s r hj⟩, by decide⟩

end Sys2Proof.Machine
end

section
/-! Proofs for 30_encoding.md: the decoder and the encoder undo each other, by bytes and by number (R96 to R100, R108), the bit fields
and the codecs of the status words (R80, R85 to R87), and the offset as the device sees it (R90, R91). -/

namespace Sys2Proof.Machine

/-! ## Bytes joined and taken apart -/

theorem byteOf_self (b : Byte) : byteOf b 0 = b := by simp [byteOf]

/-- The lowest byte of a value with a byte put below it. -/
theorem byteOf_append_zero {w : Nat} (x : BitVec w) (b : Byte) : byteOf (x ++ b) 0 = b := by
  apply BitVec.eq_of_getLsbD_eq
  intro j hj
  rw [byteOf_getLsbD _ _ _ hj, BitVec.getLsbD_append]
  simp [hj]

/-- The higher bytes of a value with a byte put below it. -/
theorem byteOf_append_succ {w : Nat} (x : BitVec w) (b : Byte) (i : Nat) : byteOf (x ++ b) (i + 1) = byteOf x i := by
  apply BitVec.eq_of_getLsbD_eq
  intro j hj
  rw [byteOf_getLsbD _ _ _ hj, byteOf_getLsbD _ _ _ hj, BitVec.getLsbD_append, if_neg (by omega)]
  congr 1
  omega

/-- The bytes of a write transaction whose data is joined from four bytes (R96). -/
theorem encodeWr_joinWord (r : Reg) (b0 b1 b2 b3 : Byte) :
    encodeWr r (joinWord b0 b1 b2 b3) = [b0, b1, b2, b3, BitVec.ofNat 8 (128 + r.offset)] := by
  simp only [encodeWr, joinWord, byteOf_append_zero, byteOf_append_succ, byteOf_self]

/-- The bytes of a Format C or P word whose argument is joined from eight bytes (R98, R99). -/
theorem encodeArg_joinDWord (sel a0 a1 a2 a3 a4 a5 a6 a7 : Byte) :
    encodeArg sel (joinDWord a0 a1 a2 a3 a4 a5 a6 a7) = [a0, a1, a2, a3, a4, a5, a6, a7, sel] := by
  simp only [encodeArg, joinDWord, byteOf_append_zero, byteOf_append_succ, byteOf_self]

/-! ## What the decoders accept -/

/-- A slot is selected by its own offset only (R112). -/
theorem decodeSlot_ok {off : Nat} {r : Reg} (h : decodeSlot off 32 = .ok r) : off = r.offset := by
  have hindex : ∀ {n : Nat}, regAtIndex n = some r → r.offset = 4 * n := by
    intro n hn
    simp only [regAtIndex] at hn
    split at hn <;> cases hn <;> rfl
  simp only [decodeSlot] at h
  split at h
  · cases h
  · split at h
    · cases h
    · split at h
      · next hr => cases h; have := hindex hr; omega
      · cases h

/-- Format X (R96): a write transaction with its data, or a read transaction with any data bits. -/
theorem decodeCsr_ok {bytes : List Byte} {i : Instr} (h : decodeCsr bytes = .ok i) :
    (∃ r v, bytes = encodeWr r v ∧ i = csrWr r v) ∨
      ∃ r b0 b1 b2 b3, bytes = [b0, b1, b2, b3, BitVec.ofNat 8 r.offset] ∧ i = csrRd r := by
  simp only [decodeCsr] at h
  split at h
  · next b0 b1 b2 b3 m =>
    split at h
    · cases h
    · next r hr =>
      have hoff := decodeSlot_ok hr
      have hm := m.isLt
      split at h
      · next hread =>
        cases h
        refine .inr ⟨r, b0, b1, b2, b3, ?_, rfl⟩
        rw [← hoff, Nat.mod_eq_of_lt hread]
        simp
      · cases h
        refine .inl ⟨r, joinWord b0 b1 b2 b3, ?_, rfl⟩
        rw [encodeWr_joinWord, show 128 + r.offset = m.toNat by omega]
        simp
  · cases h

/-- Format C (R98): a code with any argument. -/
theorem decodeCommand_ok {bytes : List Byte} {i : Instr} (h : decodeCommand bytes = .ok i) :
    ∃ code arg, bytes = encodeArg code arg ∧ commandOf code.toNat arg = .ok i := by
  simp only [decodeCommand] at h
  split at h
  · exact ⟨_, _, (encodeArg_joinDWord _ _ _ _ _ _ _ _ _).symm, h⟩
  · cases h

/-- Format P (R99): a selector with any argument. -/
theorem decodeProcedure_ok {bytes : List Byte} {i : Instr} (h : decodeProcedure bytes = .ok i) :
    ∃ sel arg, bytes = encodeArg sel arg ∧ procedureOf sel.toNat arg = .ok i := by
  simp only [decodeProcedure] at h
  split at h
  · exact ⟨_, _, (encodeArg_joinDWord _ _ _ _ _ _ _ _ _).symm, h⟩
  · cases h

/-- Format E (R100): the byte of one of the three lines. -/
theorem decodeEvent_ok {bytes : List Byte} {i : Instr} (h : decodeEvent bytes = .ok i) : ∃ b, bytes = [b] ∧ encode i = [b] := by
  simp only [decodeEvent] at h
  split at h
  · next b =>
    refine ⟨b, rfl, ?_⟩
    rw [← show BitVec.ofNat 8 b.toNat = b by simp]
    generalize b.toNat = n at h ⊢
    split at h <;> cases h <;> rfl
  · cases h

/-- The bytes of an operation are as many as its surface's format has (R96, R98, R99, R100). -/
theorem decode_length {surface : Surface} {bytes : List Byte} {i : Instr} (h : decode surface bytes = .ok i) :
    bytes.length = formatBytes surface := by
  cases surface with
  | csr => rcases decodeCsr_ok h with ⟨r, v, rfl, _⟩ | ⟨r, b0, b1, b2, b3, rfl, _⟩ <;> rfl
  | command => obtain ⟨code, arg, rfl, _⟩ := decodeCommand_ok h; rfl
  | procedure => obtain ⟨sel, arg, rfl, _⟩ := decodeProcedure_ok h; rfl
  | event => obtain ⟨b, rfl, _⟩ := decodeEvent_ok h; rfl

/-! ## The numbers of the opcode table -/

theorem bytesNumber_cons (b : Byte) (bs : List Byte) : bytesNumber (b :: bs) = b.toNat + 256 * bytesNumber bs := rfl

theorem bytesNumber_lt (bytes : List Byte) : bytesNumber bytes < 2 ^ (8 * bytes.length) := by
  induction bytes with
  | nil => simp [bytesNumber]
  | cons b bs ih =>
    have hb := b.isLt
    rw [bytesNumber_cons, List.length_cons, Nat.mul_succ, Nat.pow_add]
    omega

/-- Byte `k` of the number is byte `k` of the list, lowest first (log 22). -/
theorem bytesNumber_byte (bytes : List Byte) (k : Nat) (hk : k < bytes.length) :
    bytesNumber bytes / 256 ^ k % 256 = bytes[k].toNat := by
  induction bytes generalizing k with
  | nil => cases hk
  | cons b bs ih =>
    have hb := b.isLt
    rw [bytesNumber_cons]
    cases k with
    | zero => simp only [List.getElem_cons_zero]; omega
    | succ k =>
      have hdiv : (b.toNat + 256 * bytesNumber bs) / 256 = bytesNumber bs := by omega
      rw [Nat.pow_succ', ← Nat.div_div_eq_div_mul, hdiv]
      exact ih k (by simpa using hk)

/-- The number of a list of bytes has these bytes again. -/
theorem bytesOf_bytesNumber (bytes : List Byte) : bytesOf bytes.length (bytesNumber bytes) = bytes := by
  apply List.ext_getElem
  · simp [bytesOf]
  · intro k _ hk
    apply BitVec.eq_of_toNat_eq
    simpa [bytesOf] using bytesNumber_byte bytes k hk

/-- The selector or code is the byte above the 64 argument bits (R98, R99). -/
theorem bytesNumber_encodeArg (sel : Byte) (arg : DWord) : bytesNumber (encodeArg sel arg) / 2 ^ 64 % 256 = sel.toNat :=
  bytesNumber_byte (encodeArg sel arg) 8 (Nat.lt_succ_self 8)

/-- A command code is no selector (R98, R99). -/
theorem procedureOf_of_commandOf {code : Nat} {arg : DWord} {i : Instr} (h : commandOf code arg = .ok i) :
    procedureOf code 0 = .error .unknownSelector := by
  simp only [commandOf] at h
  split at h <;> cases h <;> rfl

/-- Whether a selector is in R99's table does not depend on the argument. -/
theorem procedureOf_anyArg {sel : Nat} {arg : DWord} {i : Instr} (h : procedureOf sel arg = .ok i) (arg' : DWord) :
    ∃ j, procedureOf sel arg' = .ok j := by
  simp only [procedureOf] at h
  split at h <;> cases h <;> exact ⟨_, rfl⟩

/-- The number of bytes that decode at a surface is taken at that surface. -/
theorem surfaceOf_bytesNumber {surface : Surface} {bytes : List Byte} {i : Instr} (h : decode surface bytes = .ok i) :
    surfaceOf (8 * bytes.length) (bytesNumber bytes) = surface := by
  rw [decode_length h]
  cases surface with
  | csr | event => rfl
  | command =>
    obtain ⟨code, arg, rfl, hcode⟩ := decodeCommand_ok h
    simp only [surfaceOf, formatBytes, bytesNumber_encodeArg, procedureOf_of_commandOf hcode, Nat.reduceMul, Nat.reduceLeDiff,
      if_false]
  | procedure =>
    obtain ⟨sel, arg, rfl, hsel⟩ := decodeProcedure_ok h
    obtain ⟨j, hj⟩ := procedureOf_anyArg hsel 0
    simp only [surfaceOf, formatBytes, bytesNumber_encodeArg, hj, Nat.reduceMul, Nat.reduceLeDiff, if_false]

/-- Bytes that decode at a surface decode to the same operation by their number (R108; log 32). -/
theorem decodeTableWord_bytesNumber {surface : Surface} {bytes : List Byte} {i : Instr} (h : decode surface bytes = .ok i) :
    decodeTableWord (8 * bytes.length) (bytesNumber bytes) = some i := by
  have hmod : bytesNumber bytes % 2 ^ (8 * bytes.length) = bytesNumber bytes := Nat.mod_eq_of_lt (bytesNumber_lt bytes)
  have hbytes : tableBytes (8 * bytes.length) (bytesNumber bytes) = bytes := by
    rw [tableBytes, hmod, surfaceOf_bytesNumber h, ← decode_length h, bytesOf_bytesNumber]
  simp only [decodeTableWord, hmod, hbytes, surfaceOf_bytesNumber h, h]

/-! ## The two round trips (R96 to R100, R108) -/

open Laws.RoundTrip in
/-- The bytes of every operation decode to it: one lemma per constructor. -/
theorem decode_encode (i : Instr) : decode i.surface (encode i) = .ok i := by
  cases i
  exacts [csrRdReadBufferReady, csrWrReadBufferReady _, csrRdReadBufferAddr, csrWrReadBufferAddr _, csrRdReadBufferOffset,
    csrWrReadBufferOffset _, csrRdReadBufferSize, csrWrReadBufferSize _, csrRdWriteBufferReady, csrWrWriteBufferReady _,
    csrRdWriteBufferAddr, csrWrWriteBufferAddr _, csrRdWriteBufferOffset, csrWrWriteBufferOffset _, csrRdWriteBufferSize,
    csrWrWriteBufferSize _, csrRdReadTransferDone, csrWrReadTransferDone _, csrRdWriteTransferDone, csrWrWriteTransferDone _,
    csrRdReadFileLengthHi, csrWrReadFileLengthHi _, csrRdReadFileLength, csrWrReadFileLength _, csrRdReadBufferTransferDone,
    csrWrReadBufferTransferDone _, csrRdWriteBufferTransferDone, csrWrWriteBufferTransferDone _, csrRdEncParams1,
    csrWrEncParams1 _, csrRdEncParams2, csrWrEncParams2 _, csrRdRawResolution, csrWrRawResolution _, csrRdUsecaseMode,
    csrWrUsecaseMode _, csrRdEncParams3, csrWrEncParams3 _, csrRdEncParams4, csrWrEncParams4 _, csrRdEncParams5,
    csrWrEncParams5 _, csrRdReadBufferTransferDoneIntr, csrWrReadBufferTransferDoneIntr _, csrRdWriteBufferTransferDoneIntr,
    csrWrWriteBufferTransferDoneIntr _, csrRdHostDoneIntr, csrWrHostDoneIntr _, getFileLength, getEncParams, getResolution,
    getMode, getFps, getFormat, setReadOffset _, setWriteOffset _, setReadTransferDone, clearReadTransferDone,
    setWriteTransferDone, clearWriteTransferDone, beginTransfer _ _, markReady _, completeAndRelease _, wait _, signal _,
    abort _, resetAll, read _, write _, seek _, evReadComplete, evWriteComplete, evHostDone]

/-- Settles O6: the bytes by `decode_encode`, and so the number of those bytes. -/
theorem decodeOfEncode : Obligations.DecodeOfEncode :=
  fun i => ⟨decode_encode i, decodeTableWord_bytesNumber (decode_encode i)⟩

theorem encode_csrRd (r : Reg) : encode (csrRd r) = encodeRd r := by
  rcases r with r | r | r <;> cases r <;> rfl

theorem carriesData_csrRd (r : Reg) : carriesData (csrRd r) = false := by
  rcases r with r | r | r <;> cases r <;> rfl

theorem encode_csrWr (r : Reg) (v : Word) : encode (csrWr r v) = encodeWr r v := by
  rcases r with r | r | r <;> cases r <;> rfl

/-- A command is encoded with its code, and with its argument where it takes one (R98). -/
theorem encode_of_commandOf {code : Byte} {arg : DWord} {i : Instr} (h : commandOf code.toNat arg = .ok i) :
    encode i = encodeArg code (if carriesData i then arg else 0) := by
  rw [← show BitVec.ofNat 8 code.toNat = code by simp]
  generalize code.toNat = n at h ⊢
  simp only [commandOf] at h
  split at h <;> cases h <;> rfl

/-- A procedure is encoded with its selector, and with its argument where it takes one (R99). -/
theorem encode_of_procedureOf {sel : Byte} {arg : DWord} {i : Instr} (h : procedureOf sel.toNat arg = .ok i) :
    encode i = encodeArg sel (if carriesData i then arg else 0) := by
  rw [← show BitVec.ofNat 8 sel.toNat = sel by simp]
  generalize sel.toNat = n at h ⊢
  simp only [procedureOf] at h
  split at h <;> cases h <;> rfl

/-- Settles O7: the shape of what each surface decodes, and the encoding written out for that shape. -/
theorem decodingKeepsTheWord : Obligations.DecodingKeepsTheWord := by
  intro surface bytes i h
  refine ⟨decode_surface h, ?_⟩
  cases surface with
  | csr =>
    rcases decodeCsr_ok h with ⟨r, v, rfl, rfl⟩ | ⟨r, b0, b1, b2, b3, rfl, rfl⟩
    · rw [encode_csrWr]
      exact ⟨rfl, rfl, fun _ => rfl⟩
    · rw [encode_csrRd, carriesData_csrRd]
      exact ⟨rfl, rfl, nofun⟩
  | command =>
    obtain ⟨code, arg, rfl, hcode⟩ := decodeCommand_ok h
    rw [encode_of_commandOf hcode]
    exact ⟨rfl, rfl, fun hdata => by rw [if_pos hdata]⟩
  | procedure =>
    obtain ⟨sel, arg, rfl, hsel⟩ := decodeProcedure_ok h
    rw [encode_of_procedureOf hsel]
    exact ⟨rfl, rfl, fun hdata => by rw [if_pos hdata]⟩
  | event =>
    obtain ⟨b, rfl, henc⟩ := decodeEvent_ok h
    exact ⟨congrArg _ henc, congrArg _ henc, fun _ => henc⟩

/-- Settles O5: the decoder evaluates on these thirteen numbers. -/
theorem specWordsDecode : Obligations.SpecWordsDecode := by
  unfold Obligations.SpecWordsDecode
  decide

/-! ## Bit fields (R80, R87) -/

theorem fieldMask_getLsbD (w i : Nat) (hi : i < 32) : (fieldMask w).getLsbD i = decide (i < w) := by
  rw [fieldMask, BitVec.getLsbD_ofNat, Nat.testBit_two_pow_sub_one, decide_eq_true hi, Bool.true_and]

theorem fieldGet_getLsbD (word : Word) (lo w i : Nat) (hi : i < 32) :
    (fieldGet word lo w).getLsbD i = (decide (i < w) && word.getLsbD (lo + i)) := by
  rw [fieldGet, BitVec.getLsbD_and, BitVec.getLsbD_ushiftRight, fieldMask_getLsbD _ _ hi, Bool.and_comm]

theorem fieldPut_getLsbD (word : Word) (lo w v i : Nat) (hi : i < 32) :
    (fieldPut word lo w v).getLsbD i = if lo ≤ i ∧ i < lo + w then v.testBit (i - lo) else word.getLsbD i := by
  rw [fieldPut, BitVec.getLsbD_or, BitVec.getLsbD_and, BitVec.getLsbD_not, BitVec.getLsbD_shiftLeft, BitVec.getLsbD_shiftLeft,
    BitVec.getLsbD_and, BitVec.getLsbD_ofNat, fieldMask_getLsbD _ _ (show i - lo < 32 by omega)]
  by_cases hlo : lo ≤ i
  · by_cases hhi : i < lo + w
    · simp [hi, hlo, hhi, show ¬ i < lo by omega, show i - lo < w by omega, show i - lo < 32 by omega]
    · simp [hi, hhi, show ¬ i - lo < w by omega]
  · simp [hi, hlo, show i < lo by omega]

/-- A field is its bits of the word, zero-extended. -/
theorem fieldGet_eq_extractLsb' (word : Word) (lo w : Nat) :
    fieldGet word lo w = (word.extractLsb' lo w).setWidth 32 := by
  apply BitVec.eq_of_getLsbD_eq
  intro i hi
  rw [fieldGet_getLsbD _ _ _ _ hi, BitVec.getLsbD_setWidth, BitVec.getLsbD_extractLsb', decide_eq_true hi, Bool.true_and]

/-- Getting the field that was put gives the low bits of the value. -/
theorem fieldGet_fieldPut_same (word : Word) {lo w : Nat} (v : Nat) (h : lo + w ≤ 32) :
    fieldGet (fieldPut word lo w v) lo w = BitVec.ofNat 32 (v % 2 ^ w) := by
  apply BitVec.eq_of_getLsbD_eq
  intro i hi
  rw [fieldGet_getLsbD _ _ _ _ hi, BitVec.getLsbD_ofNat, Nat.testBit_mod_two_pow]
  by_cases hw : i < w
  · rw [fieldPut_getLsbD _ _ _ _ _ (by omega), if_pos (by omega)]
    simp [hw, hi]
  · simp [hw]

/-- Putting a field leaves every field that shares no bit with it as it was. -/
theorem fieldGet_fieldPut_other (word : Word) {lo w lo' w' : Nat} (v : Nat) (h : lo' + w' ≤ 32)
    (hdisjoint : lo' + w' ≤ lo ∨ lo + w ≤ lo') : fieldGet (fieldPut word lo w v) lo' w' = fieldGet word lo' w' := by
  apply BitVec.eq_of_getLsbD_eq
  intro i hi
  rw [fieldGet_getLsbD _ _ _ _ hi, fieldGet_getLsbD _ _ _ _ hi]
  by_cases hw : i < w'
  · rw [fieldPut_getLsbD _ _ _ _ _ (by omega), if_neg (by omega)]
  · simp [hw]

/-- Settles O13: the field that was put, and one that shares no bit with it. -/
theorem fieldPutThenGet : Obligations.FieldPutThenGet :=
  fun word _ _ v _ h => ⟨fieldGet_fieldPut_same word v h, fun _ _ _ h' hd => fieldGet_fieldPut_other word v h' hd⟩

/-! ## The status words as fields (R85, R86) -/

/-- The bits of a word, from a field of it. -/
theorem extractLsb'_eq_fieldGet (word : Word) (lo : Nat) {w : Nat} (hw : w ≤ 32) :
    word.extractLsb' lo w = (fieldGet word lo w).setWidth w := by
  rw [fieldGet_eq_extractLsb', BitVec.setWidth_setWidth_of_le _ hw, BitVec.setWidth_eq]

@[simp] theorem fieldGet_zero (lo w : Nat) : fieldGet 0#32 lo w = 0#32 := by simp [fieldGet]

/-- Getting the field in which a word was put gives the word's low bits (R89). -/
theorem fieldGet_fieldPut_toNat (word x : Word) {lo w : Nat} (h : lo + w ≤ 32) :
    fieldGet (fieldPut word lo w x.toNat) lo w = x &&& fieldMask w := by
  rw [fieldGet_fieldPut_same word x.toNat h]
  apply BitVec.eq_of_getLsbD_eq
  intro i hi
  rw [BitVec.getLsbD_ofNat, Nat.testBit_mod_two_pow, BitVec.getLsbD_and, fieldMask_getLsbD _ _ hi, BitVec.testBit_toNat,
    decide_eq_true hi, Bool.true_and, Bool.and_comm]

/-- Adding a field to a word that has zeros there puts the field. -/
theorem or_shiftLeft_eq_fieldPut (word x : Word) {lo w : Nat} (hlo : lo + w ≤ 32) (h : fieldGet word lo w = 0#32) :
    word ||| ((x &&& fieldMask w) <<< lo) = fieldPut word lo w x.toNat := by
  apply BitVec.eq_of_getLsbD_eq
  intro i hi
  rw [fieldPut_getLsbD _ _ _ _ _ hi, BitVec.getLsbD_or, BitVec.getLsbD_shiftLeft, BitVec.getLsbD_and,
    fieldMask_getLsbD _ _ (show i - lo < 32 by omega)]
  split
  · next hin =>
    obtain ⟨hge, _⟩ := hin
    have hzero : (fieldGet word lo w).getLsbD (i - lo) = false := by rw [h]; exact BitVec.getLsbD_zero
    rw [fieldGet_getLsbD _ _ _ _ (by omega), decide_eq_true (show i - lo < w by omega), Nat.add_sub_of_le hge] at hzero
    have hbit : word.getLsbD i = false := hzero
    rw [hbit, BitVec.testBit_toNat]
    simp [hi, show ¬ i < lo by omega, show i - lo < w by omega]
  · by_cases hlt : i < lo
    · simp [hlt]
    · simp [show ¬ i - lo < w by omega]

/-- RAW_RESOLUTION is its two fields (R85). -/
theorem encodeResolution_eq_fieldPut (a b : Word) :
    encodeResolution a b = fieldPut (fieldPut 0#32 0 16 a.toNat) 16 16 b.toNat := by
  rw [← or_shiftLeft_eq_fieldPut _ b (by decide) (by rw [fieldGet_fieldPut_other _ _ (by decide) (by decide), fieldGet_zero]),
    ← or_shiftLeft_eq_fieldPut 0#32 a (by decide) (fieldGet_zero _ _), BitVec.zero_or, BitVec.shiftLeft_zero]
  rfl

/-- USECASE_MODE is its three fields (R86). -/
theorem encodeUsecase_eq_fieldPut (m f p : Word) :
    encodeUsecase m f p = fieldPut (fieldPut (fieldPut 0#32 0 2 m.toNat) 2 3 f.toNat) 5 10 p.toNat := by
  rw [← or_shiftLeft_eq_fieldPut _ p (by decide) (by simp [fieldGet_fieldPut_other]),
    ← or_shiftLeft_eq_fieldPut _ f (by decide) (by simp [fieldGet_fieldPut_other]),
    ← or_shiftLeft_eq_fieldPut 0#32 m (by decide) (fieldGet_zero _ _), BitVec.zero_or, BitVec.shiftLeft_zero]
  rfl

/-- Putting back both half-words of a word gives the word (R85). -/
theorem encodeResolution_decodeResolution (word : Word) :
    encodeResolution (decodeResolution word).1 (decodeResolution word).2 = word := by
  rw [encodeResolution_eq_fieldPut]
  apply BitVec.eq_of_getLsbD_eq
  intro i hi
  rw [fieldPut_getLsbD _ _ _ _ _ hi, fieldPut_getLsbD _ _ _ _ _ hi, BitVec.testBit_toNat, BitVec.testBit_toNat,
    decodeResolution, fieldGet_getLsbD _ _ _ _ (by omega), fieldGet_getLsbD _ _ _ _ (by omega)]
  by_cases hhi : 16 ≤ i
  · simp [hhi, hi, show i - 16 < 16 by omega]
  · simp [hhi, show i < 16 by omega]

theorem decodeResolution_encodeResolution (a b : Word) :
    decodeResolution (encodeResolution a b) = (a &&& 0xFFFF#32, b &&& 0xFFFF#32) := by
  rw [encodeResolution_eq_fieldPut, decodeResolution, fieldGet_fieldPut_toNat _ _ (by decide),
    fieldGet_fieldPut_other _ _ (by decide) (by decide), fieldGet_fieldPut_toNat _ _ (by decide)]
  rfl

/-- Settles O14: the fields by their bits, the round trips from `encodeResolution_eq_fieldPut`. -/
theorem resolutionCodec : Obligations.ResolutionCodec :=
  ⟨fun word => ⟨by rw [decodeResolution, fieldGet_eq_extractLsb', fieldGet_eq_extractLsb'],
    encodeResolution_decodeResolution word⟩, decodeResolution_encodeResolution⟩

/-- The four fields of an encoded USECASE_MODE, the unused one among them (R86). -/
theorem fieldGet_encodeUsecase (m f p : Word) :
    fieldGet (encodeUsecase m f p) 0 2 = m &&& fieldMask 2 ∧ fieldGet (encodeUsecase m f p) 2 3 = f &&& fieldMask 3 ∧
      fieldGet (encodeUsecase m f p) 5 10 = p &&& fieldMask 10 ∧ fieldGet (encodeUsecase m f p) 15 17 = 0#32 := by
  simp [encodeUsecase_eq_fieldPut, fieldGet_fieldPut_other, fieldGet_fieldPut_toNat]

/-- Settles O15: the decoders get fields, and `fieldGet_encodeUsecase` says what the encoder put there. -/
theorem usecaseCodec : Obligations.UsecaseCodec := by
  refine ⟨fun word => ⟨(extractLsb'_eq_fieldGet word 0 (by decide)).symm, fieldGet_eq_extractLsb' word 2 3,
    fieldGet_eq_extractLsb' word 5 10⟩, fun m f p => ?_⟩
  obtain ⟨hmode, hformat, hfps, hunused⟩ := fieldGet_encodeUsecase m f p
  refine ⟨?_, hformat, hfps, ?_⟩
  · rw [decodeMode, hmode, extractLsb'_eq_fieldGet m 0 (by decide), fieldGet, BitVec.ushiftRight_zero]
  · rw [extractLsb'_eq_fieldGet _ _ (by decide), hunused]
    rfl

/-! ## The offset as the device sees it (R90, R91, R206, R207) -/

/-- The state after SET_d_OFFSET's two steps (R206, R207). -/
def offsetSet (d : Dir) (o : DWord) (s : State) : State :=
  updateReady d (.putOffHi (offsetHi o)) (s.setReg (offsetReg d) ((offsetLo o).setWidth 32))

/-- SET_d_OFFSET of an idle caller, not preempted, with no block of `d` open (R206, R207). -/
theorem exec_setOffsetOf_idle {d : Dir} {o : DWord} {s : State} (hi : s.idle s.caller = true) (hq : s.quantum = none)
    (ho : s.opened.get d = none) :
    exec (setOffsetOf d o) s = .next ((offsetSet d o s).returns s.caller .ok none) := by
  rw [exec_setOffsetOf, beginOperation_idle hi, runCallerTask, turnLength_none hq]
  have hrun : runMicros 16 (newTask (setOffsetSteps d o) (.const .ok)) s = .done .ok none (offsetSet d o s) := by
    refine (runMicros_went (t := newTask [.rmw d (.putOffHi (offsetHi o))] _) (.inr (live_none rfl))
      (.write (offsetReg d) ((offsetLo o).setWidth 32)) (by simp [newTask])).trans ?_
    refine (runMicros_went_last (t := newTask [] _) (.inr (live_none rfl)) (.rmw d (.putOffHi (offsetHi o))) rfl).trans ?_
    rw [closeOpen_none (by simpa using ho)]
    rfl
  rw [hrun]
  rfl

/-- The new high half-word of READY (R93). -/
theorem putOffHi_extractLsb'_high (v : Word) (h : Half) : (putOffHi v h).extractLsb' 16 16 = h := by
  apply BitVec.eq_of_getLsbD_eq
  intro j hj
  rw [BitVec.getLsbD_extractLsb', putOffHi_getLsbD _ _ _ (by omega), if_neg (by omega)]
  simp [hj]

/-- The two half-words of an offset (R90), joined, are its low 32 bits (R91). -/
theorem offsetHi_append_offsetLo (o : DWord) : offsetHi o ++ offsetLo o = o.extractLsb' 0 32 := by
  apply BitVec.eq_of_getLsbD_eq
  intro j hj
  rw [BitVec.getLsbD_append, offsetHi, offsetLo, BitVec.getLsbD_extractLsb', BitVec.getLsbD_extractLsb',
    BitVec.getLsbD_extractLsb']
  split
  · next h => simp [h, hj]
  · next h => simp [hj, show j - 16 < 16 by omega, show 16 + (j - 16) = j by omega]

/-- What SET_d_OFFSET leaves for the device to see (R91). -/
theorem deviceOffset_after_setOffset {d : Dir} {o : DWord} {s t : State} (hq : s.quantum = none) (ho : s.opened.get d = none)
    (h : exec (setOffsetOf d o) s = .next t) : deviceOffset t d = o.extractLsb' 0 32 := by
  have hi : s.idle s.caller = true := (beginOperation_next (exec_setOffsetOf d o s ▸ h)).1
  rw [exec_setOffsetOf_idle hi hq ho] at h
  cases h
  have hlow : ((offsetLo o).setWidth 32).extractLsb' 0 16 = offsetLo o := by
    rw [BitVec.extractLsb'_setWidth_of_le (by decide), BitVec.extractLsb'_eq_self]
  rw [deviceOffset, returns_reg, returns_reg, offsetSet, updateReady_reg_same, applyReadyUpdate_putOffHi, putOffHi_extractLsb'_high,
    updateReady_reg_other _ _ _ _ (readyReg_ne_offsetReg d d).symm, State.setReg_reg_same, hlow, offsetHi_append_offsetLo]

/-- Settles O20: the device's view is the two registers, so what SET_d_OFFSET left there is what it sees. -/
theorem deviceSeesTheOffset : Obligations.DeviceSeesTheOffset := by
  refine ⟨fun _ _ => rfl, fun d o s t u hq ho h hready hoffset => ?_⟩
  rw [← deviceOffset_after_setOffset hq ho h, deviceOffset, deviceOffset, hready, hoffset]

end Sys2Proof.Machine
end

section
/-! Proofs for 40_csr_access.md: the slot decoder (R112), the register transactions of each class (R110, R111, R113 to R115), and what
a register transaction leaves alone (R118). -/

namespace Sys2Proof.Machine

/-! ## The slot decoder (R112) -/

/-- A multiple of 4 whose word index is mapped selects that slot (R97, R112). -/
theorem decodeSlot_of_index {off : Nat} {r : Reg} (haligned : off % 4 = 0) (hindex : regAtIndex (off / 4) = some r) :
    decodeSlot off 32 = .ok r := by
  simp [decodeSlot, haligned, hindex]

/-- Every slot is selected by its own offset and by no other (R112). -/
theorem decodeSlot_eq_ok_iff {off : Nat} {r : Reg} : decodeSlot off 32 = .ok r ↔ off = r.offset := by
  refine ⟨decodeSlot_ok, ?_⟩
  rintro rfl
  obtain ⟨haligned, hindex⟩ := regAtIndex_offset r
  exact decodeSlot_of_index haligned hindex

/-- Every slot lies in the region that Format X can address (R96, R97). -/
theorem regOffset_lt (r : Reg) : r.offset < 0x80 := by
  rcases r with r | r | r <;> cases r <;> decide

/-- Why a 32-bit access selects no slot (R65, R112). -/
theorem decodeSlot_error {off : Nat} {e : DecodeError} (h : decodeSlot off 32 = .error e) :
    e = .misaligned ∨ e = .unmappedOffset := by
  simp only [decodeSlot] at h
  split at h
  · next hwidth => exact absurd rfl hwidth
  · split at h
    · cases h; exact .inl rfl
    · split at h
      · cases h
      · cases h; exact .inr rfl

/-- A register transaction at an offset that no slot has names no operation (R112). -/
theorem decodeCsr_of_no_slot {b0 b1 b2 b3 h : Byte} (hoff : ∀ r : Reg, h.toNat % 128 ≠ r.offset) :
    ∃ e, decodeCsr [b0, b1, b2, b3, h] = .error e ∧ (e = .misaligned ∨ e = .unmappedOffset) := by
  cases hslot : decodeSlot (h.toNat % 128) 32 with
  | ok r => exact absurd (decodeSlot_ok hslot) (hoff r)
  | error e => exact ⟨e, by simp only [decodeCsr, hslot], decodeSlot_error hslot⟩

/-- The step of a caller's issue of bytes that name no operation, an unknown command code aside (R101, R104, R108). -/
theorem step_issue_undecodable {s : State} {k : Nat} {surface : Surface} {bytes : List Byte} {rest : List Move} {e : DecodeError}
    (hs : s.schedule = .issue k surface bytes :: rest) (hd : decode surface bytes = .error e) (he : e ≠ .unknownCommand) :
    step s = .refused (.undecodable e) := by
  simp only [step, takeNext, hs, takeMove, issue, hd]

/-- Settles O4: the decoder selects a slot by its own offset only, and an offset of no slot gives a decode error that is refused. -/
theorem slotDecodeIsTheTable : Obligations.SlotDecodeIsTheTable := by
  refine ⟨fun off r => ⟨fun h => ?_, fun ⟨_, haligned, hindex⟩ => decodeSlot_of_index haligned hindex⟩,
    fun _ _ => decodeSlot_eq_ok_iff, fun s k rest b0 b1 b2 b3 h hs hoff => ?_⟩
  · obtain rfl := decodeSlot_ok h
    exact ⟨regOffset_lt r, regAtIndex_offset r⟩
  · obtain ⟨e, hd, he⟩ := decodeCsr_of_no_slot hoff
    exact ⟨e, step_issue_undecodable hs hd (by rcases he with rfl | rfl <;> nofun)⟩

/-! ## The register transactions (R110, R111) -/

/-- CSR_RD of an idle caller: the word `RegRead` gives goes to the caller (R110). -/
theorem exec_csrRd_idle (r : Reg) {s : State} (hi : s.idle s.caller = true) :
    exec (csrRd r) s = .next ((regRead r s).2.returns s.caller (.word (regRead r s).1) none) := by
  rw [exec_csrRd]
  exact beginOperation_one (v := [(regRead r s).1]) hi (micro_free rfl)

/-- CSR_WR of an idle caller, where `RegWrite` has an effect (R111; log 24). -/
theorem exec_csrWr_of_ok {r : Reg} {v : Word} {s s' : State} (hi : s.idle s.caller = true) (hw : regWrite r v s = .ok s') :
    exec (csrWr r v) s = .next (s'.returns s.caller .ok none) := by
  rw [exec_csrWr]
  exact beginOperation_one hi (by rw [micro_live (live_none rfl), act, hw])

/-- CSR_WR of an idle caller, where `RegWrite` has none (R111, R114, R115). -/
theorem exec_csrWr_of_error {r : Reg} {v : Word} {s : State} {e : Refusal} (hi : s.idle s.caller = true)
    (hw : regWrite r v s = .error e) : exec (csrWr r v) s = .refused e := by
  rw [exec_csrWr]
  exact beginOperation_refuse hi (by rw [micro_live (live_none rfl), act, hw])

/-- Settles O8: `RegRead` and `RegWrite` on a class S register are the register's word and its update, and the device writes none. -/
theorem classSTransactions : Obligations.ClassSTransactions := by
  refine ⟨fun r s hi => exec_csrRd_idle (.s r) hi,
    fun r v s hi => ⟨exec_csrWr_of_ok hi rfl, fun r' => State.setReg_reg s r r' v⟩, fun m s t h r => ?_, fun r => ?_⟩
  · rw [State.reg, deviceMove_csr h, State.reg]
  · cases r <;> rfl

/-- Reading a status word after the device has driven one: the new value there, the old value elsewhere (R114). -/
theorem State.setStatus_devStatus (s : State) (r r' : DReg) (v : Word) :
    (s.setStatus r v).devStatus r' = if r' = r then v else s.devStatus r' := by
  split
  · next e => rw [e, State.setStatus_devStatus_same]
  · next hne => exact State.setStatus_devStatus_other s r r' v hne

/-- Settles O9: `RegRead` and `RegWrite` on a class D register are the driven word and a refusal, and a drive replaces that word. -/
theorem classDTransactions : Obligations.ClassDTransactions :=
  ⟨fun r _ hi => exec_csrRd_idle (.d r) hi, fun _ _ _ hi => exec_csrWr_of_error hi rfl,
    fun r v s => ⟨rfl, fun r' => State.setStatus_devStatus s r r' v⟩⟩

/-- `RegWrite` of another value than ACK_VALUE to a line's acknowledge register (R115, U10). -/
theorem regWrite_ackReg_of_ne {l : Line} {v : Word} (s : State) (hv : v ≠ Config.ackValue l) :
    regWrite (.a (ackReg l)) v s = .error (.notTheAcknowledgeValue l) := by
  cases l <;> exact if_neg hv

/-- `RegWrite` to 0x44 or 0x48, which acknowledge no line (R145, R147, U10). -/
theorem regWrite_of_no_ackLine {r : AReg} (v : Word) (s : State) (hr : ackLine r = none) :
    regWrite (.a r) v s = .error (.unusedAcknowledgeWrite r) := by
  simp only [regWrite, hr]

/-- Settles O10: `RegWrite` on a class A register by the line it acknowledges and the value, and `RegRead` as a draw. -/
theorem classATransactions : Obligations.ClassATransactions := by
  refine ⟨fun l s hi => exec_csrWr_of_ok hi (regWrite_ackReg l s),
    fun l v s hi hv => exec_csrWr_of_error hi (regWrite_ackReg_of_ne s hv),
    fun r v s hi hr => exec_csrWr_of_error hi (regWrite_of_no_ackLine v s ?_), fun r s hi => exec_csrRd_idle (.a r) hi⟩
  rcases hr with rfl | rfl <;> rfl

/-! ## What a register transaction leaves alone (R118) -/

/-- The operations of level X are the reads and writes of the slots (R95, R96). -/
theorem exists_reg_of_surface_csr {i : Instr} (h : i.surface = .csr) : (∃ r, i = csrRd r) ∨ ∃ r v, i = csrWr r v := by
  have hd := decode_encode i
  rw [h] at hd
  rcases decodeCsr_ok hd with ⟨r, v, _, rfl⟩ | ⟨r, _, _, _, _, _, rfl⟩
  · exact .inr ⟨r, v, rfl⟩
  · exact .inl ⟨r, rfl⟩

/-- No rule lets a level X operation change a slot, a buffer, a gate or a waiter (R118). -/
theorem changes_nothing_of_surface_csr {i : Instr} (h : i.surface = .csr) :
    changesSlot i = false ∧ changesBuffer i = false ∧ changesGate i = false ∧ changesWaiter i = false := by
  rcases exists_reg_of_surface_csr h with ⟨r, rfl⟩ | ⟨r, v, rfl⟩ <;>
    rcases r with r | r | r <;> cases r <;> exact ⟨rfl, rfl, rfl, rfl⟩

/-- A level X operation is no event dispatch (R95). -/
theorem ne_eventOf_of_surface_csr {i : Instr} (h : i.surface = .csr) (l : Line) : i ≠ eventOf l := by
  rintro rfl
  cases l <;> cases h

/-- A value per line is what it holds for each line. -/
theorem PerLine.ext_get {α : Type} {p q : PerLine α} (h : ∀ l, p.get l = q.get l) : p = q := by
  have hrc := h .rc
  have hwc := h .wc
  have hhd := h .hd
  cases p; cases q
  simp only [PerLine.get] at hrc hwc hhd
  rw [hrc, hwc, hhd]

/-- Settles O11: the frames of registers, control state and records, at the operations whose rules change none of these. -/
theorem registerTransactionFrame : Obligations.RegisterTransactionFrame := by
  intro i s t hi h
  obtain ⟨noSlot, noBuffer, noGate, noWaiter⟩ := changes_nothing_of_surface_csr hi
  obtain ⟨hstatus, hreg⟩ := registerFrame i s t h
  obtain ⟨hslot, hbuffer, _, _, hgate, hwaiter, hpending⟩ := controlStateFrame i s t h
  obtain ⟨hbuf, hbytes⟩ := hbuffer noBuffer
  have hhandler : t.handler = s.handler := PerLine.ext_get fun l => (exec_records h).2 l (ne_eventOf_of_surface_csr hi l)
  exact ⟨hslot noSlot, hbuf, hgate noGate, hwaiter noWaiter, hstatus, hhandler, hreg, hpending, hbytes⟩

end Sys2Proof.Machine
end

section
/-! Proofs for 41_transfer_buffer.md: BEGIN_TRANSFER (R170, R177) and the length's domain (D10), MARK_READY (R171),
COMPLETE_AND_RELEASE (R172, R173) and ABORT (R174). -/

namespace Sys2Proof.Machine

/-! ## A transfer that stays in its slot (R173, R175) -/

/-- A task that acts on the transfer a slot held is live while that slot's buffer stays (R175). -/
theorem live_of_transferOf {t : Task} {d : Dir} {s u : State} (ht : t.holds = transferOf d s)
    (hbuf : u.buf.get d = s.buf.get d) : live t u = true := by
  cases hb : s.buf.get d with
  | none => exact live_none (by simp [ht, transferOf, hb])
  | some b => exact (live_some (n := b.serial) (by simp [ht, transferOf, hb])).2 ⟨b, hbuf.trans hb, rfl⟩

/-- A release with no block of `d` open drops none (R173; log 21). -/
theorem freeBuffer_of_not_opened {d : Dir} {s : State} (ho : s.opened.get d = none) :
    freeBuffer d s = ((s.setBuf d none).setSlot d .unallocated).setHandle d none := by
  have hset : s.opened.set d none = s.opened := ho ▸ PerDir.set_get s.opened d
  rw [freeBuffer, ho, Option.filter_none, State.setOpened, State.setHandle_opened, State.setSlot_opened, State.setBuf_opened, hset]
  rfl

/-! ## The domain of a length (D10) -/

/-- A length above LEN_MAX, read as a signed number, is above it unsigned too (R99, R230). -/
theorem lengthTooLong_of_toInt {n : DWord} (h : 4294967295 < n.toInt) : lengthTooLong n = true := by
  have hcond := BitVec.toInt_eq_toNat_cond n
  rw [lengthTooLong_iff]
  split at hcond <;> omega

/-- A bulk length above LEN_MAX is refused before anything else (R230, R231; log 14). -/
theorem withBulkLength_tooLong {n : DWord} (run : Word → Host.Outcome State Fault Refusal) (s : State)
    (h : 4294967295 < n.toInt) : withBulkLength n run s = .refused .lengthOutOfDomain := by
  rw [withBulkLength, if_neg (by simp only [bulkLength]; omega), if_pos (lengthTooLong_of_toInt h)]

theorem wf_beginTransfer_eq_false_iff (d : Dir) (len : DWord) :
    (Instr.beginTransfer d len).wf = false ↔ 4294967295 < len.toNat :=
  decide_eq_false_iff_not.trans Nat.not_le

theorem wf_bulk_eq_false_iff {i : Instr} {n : DWord} (hi : i = .read n ∨ i = .write n) :
    i.wf = false ↔ 4294967295 < n.toInt := by
  rcases hi with rfl | rfl <;> exact decide_eq_false_iff_not.trans Int.not_le

/-- Settles O27: the length tests of the three operations come first, and no other operation has an operand with a test. -/
theorem lengthAboveTheMaximumIsRefused : Obligations.LengthAboveTheMaximumIsRefused := by
  refine ⟨fun d len s h => if_pos ((lengthTooLong_iff len).2 h),
    fun n s h => ⟨by simp only [exec, execRead, withBulkLength_tooLong _ s h],
      by simp only [exec, execWrite, withBulkLength_tooLong _ s h]⟩, fun i => ⟨fun h => ?_, ?_⟩⟩
  · cases i with
    | beginTransfer d len => exact .inl ⟨d, len, rfl, (wf_beginTransfer_eq_false_iff d len).1 h⟩
    | read n => exact .inr ⟨n, .inl rfl, (wf_bulk_eq_false_iff (.inl rfl)).1 h⟩
    | write n => exact .inr ⟨n, .inr rfl, (wf_bulk_eq_false_iff (.inr rfl)).1 h⟩
    | _ => cases h
  · rintro (⟨d, len, rfl, h⟩ | ⟨n, hi, h⟩)
    · exact (wf_beginTransfer_eq_false_iff d len).2 h
    · exact (wf_bulk_eq_false_iff hi).2 h

/-! ## BEGIN_TRANSFER (R170, R177) -/

/-- A length in the domain is the number of the word SIZE_d gets (D10). -/
theorem toNat_setWidth_of_le_lenMax {len : DWord} (h : len.toNat ≤ 4294967295) : (len.setWidth 32).toNat = len.toNat := by
  rw [BitVec.toNat_setWidth]; omega

/-- BEGIN_TRANSFER.d writes ADDR_d and SIZE_d and no other register (R170, R177). -/
theorem begun_reg (d : Dir) (len dev : Word) (host k : Nat) (s : State) (r : SReg) :
    (begun d len dev host k s).reg r = if r = sizeReg d then len else if r = addrReg d then dev else s.reg r := by
  rw [begun, State.setHandle_reg, State.setReg_reg, State.setReg_reg]
  rfl

/-- Settles O25: `exec_beginTransfer` gives the next state, and its fields are read off. -/
theorem beginTransferSucceeds : Obligations.BeginTransferSucceeds := by
  intro d len dev host s hi hq hslot hpos hmax ha
  have hlen := toNat_setWidth_of_le_lenMax hmax
  have hne : len.setWidth 32 ≠ (0 : Word) := by
    intro h
    rw [h] at hlen
    exact Nat.ne_of_lt hpos hlen
  refine ⟨_, freshBuffer (len.setWidth 32) dev host s, exec_beginTransfer hi hq (lengthTooLong_false hmax) hslot hne ha,
    by simp, by simp [begun], by simp [begun], by simp [begun], hlen, rfl, rfl, ?_, ?_, ?_, rfl, rfl, by simp [begun]⟩
  · rw [returns_reg, begun_reg, if_neg (addrReg_ne_sizeReg d d), if_pos rfl]
  · rw [returns_reg, begun_reg, if_pos rfl, hlen]
  · intro r haddr hsize
    rw [returns_reg, begun_reg, if_neg hsize, if_neg haddr]

/-! ## MARK_READY (R171) -/

/-- MARK_READY.d of an idle caller that owns the handle, not preempted: `exec_markReady` without its premise on the
buffer (R171; log 24). -/
theorem exec_markReady_of_ownsHandle {d : Dir} {s : State} (hi : s.idle s.caller = true) (hq : s.quantum = none)
    (ho : s.opened.get d = none) (hslot : s.slot.get d = .published) (howns : ownsHandle d s.caller s = true) :
    exec (.markReady d) s =
      .next (((updateReady d .setReady s).setSlot d .awaitingCompletion).returns s.caller .ok none) := by
  simp only [exec, execMarkReady, beginOperation_idle hi, runCallerTask, turnLength_none hq]
  have hrun : runMicros 16 (newTask [.checkPublished d s.caller, .rmw d .setReady, .awaitCompletion d] (.const .ok)) s =
      .done .ok none ((updateReady d .setReady s).setSlot d .awaitingCompletion) := by
    refine (runMicros_went (t := newTask [.rmw d .setReady, .awaitCompletion d] _) (.inr (live_none rfl))
      (.checkPublished d s.caller hslot howns) (by simp [newTask])).trans ?_
    refine (runMicros_went (t := { newTask [.awaitCompletion d] _ with holds := transferOf d s })
      (.inr (live_of_transferOf rfl rfl)) (.rmw d .setReady) (by simp [newTask])).trans ?_
    rw [closeOpen_none ho]
    exact runMicros_went_last (t := { newTask [] _ with holds := transferOf d s })
      (.inr (live_of_transferOf rfl (by simp))) (.awaitCompletion d (by simpa using hslot)) rfl
  rw [hrun]
  rfl

/-- MARK_READY.d of an idle caller, where its precondition fails (R171, R175). -/
theorem exec_markReady_of_refuse {d : Dir} {s : State} {e : Refusal} (hi : s.idle s.caller = true)
    (h : ∀ t, checkPublished d s.caller t s = .refuse e) : exec (.markReady d) s = .refused e :=
  beginOperation_refuse hi ((micro_live (live_none rfl)).trans (h _))

/-- Settles O28: the three steps run, or the precondition refuses by the slot or by the handle. -/
theorem markReadyPublishes : Obligations.MarkReadyPublishes := by
  refine fun d s hi => ⟨fun hq ho hslot howns => ?_, fun hslot => ?_, fun hslot hother => ?_⟩
  · exact exec_markReady_of_ownsHandle hi hq ho hslot ((ownsHandle_iff d s.caller s).2 howns)
  · exact exec_markReady_of_refuse hi fun t => if_pos hslot
  · have howns : ¬ ownsHandle d s.caller s = true := by
      rw [ownsHandle_iff]
      rintro ⟨x, hx, hown⟩
      exact hother x hx hown
    exact exec_markReady_of_refuse hi fun t => by rw [checkPublished, if_neg (not_not_intro hslot), if_neg howns]

/-! ## COMPLETE_AND_RELEASE (R172, R173) -/

/-- The copy to the caller and the release that ends COMPLETE_AND_RELEASE.R on both paths (R172, R63). -/
theorem runMicros_deliver_release {n : Nat} {t : Task} {data : List Byte} {s : State} (hl : live t s = true)
    (hslot : s.slot.get .read ≠ .unallocated) (ht : t.todo = [.release .read]) :
    runMicros (n + 2) { t with todo := .deliver data :: t.todo } s =
      if s.destinationOk then .done (.bytes data) (some data) (freeBuffer .read s)
      else .done (.error .copyFault) (some (Config.partialCopy s.draws)) (freeBuffer .read s.drawn) := by
  obtain ⟨todo, vals, fin, dst, holds⟩ := t
  obtain rfl : todo = [.release .read] := ht
  cases hok : s.destinationOk with
  | true =>
    refine (runMicros_went (.inl rfl) (.deliver data hok) (by simp)).trans ?_
    exact runMicros_went_last (t := ⟨[], vals, _, _, holds⟩) (.inr hl) (.release .read hslot) rfl
  | false =>
    refine (runMicros_went (.inl rfl) (.deliverFails data hok) (by simp)).trans ?_
    exact runMicros_went_last (t := ⟨[], vals, _, _, holds⟩) (s := s.drawn) (.inr hl) (.release .read hslot) rfl

/-- COMPLETE_AND_RELEASE.R of an idle caller, not preempted, with the ready bit clear: the buffer's bytes, or CopyFault, and the
release (R172). -/
theorem exec_completeAndRelease_read {b : Buffer} {s : State} (hi : s.idle s.caller = true) (hq : s.quantum = none)
    (hmay : mayComplete .read s.caller s = true) (hb : s.buf.get .read = some b) (hready : s.ready .read = false) :
    exec (.completeAndRelease .read) s = .next (if s.destinationOk
      then (freeBuffer .read s.drawn).returns s.caller (.bytes (b.bytes 0 b.len)) (some (b.bytes 0 b.len))
      else (freeBuffer .read s.drawn.drawn).returns s.caller (.error .copyFault) (some (Config.partialCopy (s.draws + 1)))) := by
  obtain ⟨hslot, _⟩ := (mayComplete_iff .read s.caller s).1 hmay
  simp only [exec, execCompleteAndRelease, beginOperation_idle hi, runCallerTask, turnLength_none hq]
  have hrun : runMicros 16 (newTask [.complete .read s.caller] (.const (.bytes []))) s =
      if s.destinationOk then .done (.bytes (b.bytes 0 b.len)) (some (b.bytes 0 b.len)) (freeBuffer .read s.drawn)
      else .done (.error .copyFault) (some (Config.partialCopy (s.draws + 1))) (freeBuffer .read s.drawn.drawn) := by
    refine (runMicros_went (t := newTask [] _) (.inr (live_none rfl)) (.completeRead s.caller hmay) (by simp)).trans ?_
    refine (runMicros_went (t := { newTask [.release .read] _ with holds := transferOf .read s })
      (.inr (live_of_transferOf rfl rfl)) (.loadBytes [] b hb (Nat.zero_le _)) (by simp)).trans ?_
    rw [hready]
    exact runMicros_deliver_release (live_of_transferOf rfl rfl) (by simp [hslot]) rfl
  rw [hrun]
  split <;> rfl

/-- COMPLETE_AND_RELEASE.W of an idle caller, not preempted: no bytes, and the release (R172). -/
theorem exec_completeAndRelease_write {s : State} (hi : s.idle s.caller = true) (hq : s.quantum = none)
    (hmay : mayComplete .write s.caller s = true) :
    exec (.completeAndRelease .write) s = .next ((freeBuffer .write s).returns s.caller (.bytes []) none) := by
  obtain ⟨hslot, _⟩ := (mayComplete_iff .write s.caller s).1 hmay
  simp only [exec, execCompleteAndRelease, beginOperation_idle hi, runCallerTask, turnLength_none hq]
  have hrun : runMicros 16 (newTask [.complete .write s.caller] (.const (.bytes []))) s =
      .done (.bytes []) none (freeBuffer .write s) := by
    refine (runMicros_went (t := newTask [] _) (.inr (live_none rfl)) (.completeWrite s.caller hmay) (by simp)).trans ?_
    exact runMicros_went_last (t := { newTask [] _ with holds := transferOf .write s })
      (.inr (live_of_transferOf rfl rfl)) (.release .write (by simp [hslot])) rfl
  rw [hrun]
  rfl

/-- COMPLETE_AND_RELEASE.d of an idle caller, where its precondition fails (R172). -/
theorem exec_completeAndRelease_of_not_mayComplete {d : Dir} {s : State} (hi : s.idle s.caller = true)
    (hmay : ¬ mayComplete d s.caller s = true) : exec (.completeAndRelease d) s = .refused (.completionNotAwaited d) :=
  beginOperation_refuse hi ((micro_live (live_none rfl)).trans (if_neg hmay))

/-- Settles O29: R by whether the copy to the caller succeeds, W with nothing to copy, and the precondition's refusal. -/
theorem completeAndReleaseReturns : Obligations.CompleteAndReleaseReturns := by
  refine ⟨fun s b hi hq hslot hhandle hb hready => ?_,
    fun s hi hq hslot hhandle => exec_completeAndRelease_write hi hq ((mayComplete_iff .write s.caller s).2 ⟨hslot, hhandle⟩),
    fun d s hi hnot => exec_completeAndRelease_of_not_mayComplete hi ?_⟩
  · have hexec := exec_completeAndRelease_read hi hq ((mayComplete_iff .read s.caller s).2 ⟨hslot, hhandle⟩) hb hready
    cases hok : s.destinationOk with
    | true =>
      rw [hok, if_pos rfl] at hexec
      exact ⟨_, hexec, by simp⟩
    | false =>
      rw [hok, if_neg Bool.false_ne_true] at hexec
      exact ⟨_, hexec, by simp⟩
  · rw [mayComplete_iff, not_and_or]
    exact hnot

/-! ## ABORT (R174) -/

/-- ABORT.d of the caller blocked in WAIT.d, not preempted (R174; log 34). -/
theorem exec_abort {d : Dir} {s : State} (ht : s.hasTimeout = true) (hq : s.quantum = none) (ho : s.opened.get d = none)
    (hslot : s.slot.get d = .awaitingCompletion) (hwaiter : s.waiter.get d = some s.caller)
    (hblocked : blockedIn s.caller d s = true) :
    exec (.abort d) s =
      .next ((freeBuffer d ((updateReady d .clearReady s).setWaiter d none)).returns s.caller (.error .timeout) none) := by
  simp only [exec, execAbort, ht, if_true]
  have hrun : runMicros 16 { newTask (abortSteps d) (.const (.error .timeout)) with holds := transferOf d s } s =
      .done (.error .timeout) none (freeBuffer d ((updateReady d .clearReady s).setWaiter d none)) := by
    refine (runMicros_went (t := { newTask [.rmw d .clearReady, .unwait d, .release d] _ with holds := transferOf d s })
      (.inl rfl) .enter (by simp [newTask])).trans ?_
    refine (runMicros_went (t := { newTask [.unwait d, .release d] _ with holds := transferOf d s })
      (.inr (live_of_transferOf rfl rfl)) (.rmw d .clearReady) (by simp [newTask])).trans ?_
    rw [closeOpen_none ho]
    refine (runMicros_went (t := { newTask [.release d] _ with holds := transferOf d s })
      (.inr (live_of_transferOf rfl (by simp))) (.unwait d) (by simp [newTask])).trans ?_
    exact runMicros_went_last (t := { newTask [] _ with holds := transferOf d s })
      (.inr (live_of_transferOf rfl (by simp))) (.release d (by simp [hslot])) rfl
  rw [if_pos ⟨hslot, hwaiter, hblocked⟩, runCallerTask, turnLength_none hq, hrun]
  rfl

/-- ABORT.d by an agent that is not blocked in WAIT.d of a transfer in flight (R174). -/
theorem exec_abort_of_not_waiting {d : Dir} {s : State} (ht : s.hasTimeout = true)
    (h : ¬ (s.slot.get d = .awaitingCompletion ∧ s.waiter.get d = some s.caller ∧ blockedIn s.caller d s = true)) :
    exec (.abort d) s = .refused (.abortNotWaiting d) := by
  simp only [exec, execAbort, ht, if_true]
  exact if_neg h

/-- Settles O30: the four steps run, and the two refusals are ABORT.d's tests in turn. -/
theorem abortEndsInTimeout : Obligations.AbortEndsInTimeout := by
  refine ⟨fun d s ht hq ho hslot hwaiter hblocked => ?_, fun d s ht => by simp only [exec, execAbort, ht, Bool.false_eq_true,
    if_false], fun d s ht hnot => exec_abort_of_not_waiting ht ?_⟩
  · rw [exec_abort ht hq ho hslot hwaiter hblocked, freeBuffer_of_not_opened (by simpa using ho)]
    rfl
  · rintro ⟨hslot, hwaiter, hblocked⟩
    rcases hnot with h | h | h
    · exact h hslot
    · cases h.symm.trans hwaiter
    · cases h.symm.trans hblocked

end Sys2Proof.Machine
end

section
/-! Proofs for 42_completion_gate.md: WAIT and SIGNAL (R190, R191), the single-shot gate (R193), the independence of the two gates
(R194), that only a signal ends a held WAIT (R195), and that a woken caller finds the ready bit clear (R196, R292). -/

namespace Sys2Proof.Machine

/-! ## WAIT and SIGNAL (R190, R191) -/

/-- SIGNAL.d is its one write of the gate (R191). -/
theorem exec_signal (d : Dir) (s : State) : exec (.signal d) s = .next (s.setGate d .signaled) := rfl

/-- What is left of WAIT.d once the waiter mark is set (R190). -/
def waitTask (d : Dir) : Task := newTask [.waitBlock d] (.const .ok)

/-- The first step of WAIT.d, where nobody waits on `d` (R190). -/
theorem runMicros_waitEnter {d : Dir} {k n : Nat} {s : State} (hw : s.waiter.get d = none) :
    runMicros (n + 1) (newTask [.waitEnter d k, .waitBlock d] (.const .ok)) s = runMicros n (waitTask d) (s.setWaiter d (some k)) :=
  runMicros_went (t := waitTask d) (.inl rfl) (.waitEnter d k hw) (by simp [waitTask, newTask])

/-- The block of WAIT.d holds the agent while the gate is Pending (R190). -/
theorem micro_waitBlock_pending {d : Dir} {t : Task} {s : State} (hg : s.gate.get d = .pending) :
    micro (.waitBlock d) t s = .hold :=
  (micro_free rfl).trans (if_neg (by simp [hg]))

/-- The block of WAIT.d consumes a signal (R190). -/
theorem micro_waitBlock_signaled {d : Dir} {t : Task} {s : State} (hg : s.gate.get d = .signaled) :
    micro (.waitBlock d) t s = .go t (consumeSignal d (waiterFor d t s) s) :=
  went_micro (.inl rfl) (.waitBlock d hg)

/-- The waiter mark that WAIT.d sets first is gone once it has consumed the signal (R190). -/
theorem consumeSignal_setWaiter (d : Dir) (k x : Option Nat) (s : State) :
    consumeSignal d k (s.setWaiter d x) = consumeSignal d k s := by
  simp only [consumeSignal, State.setWaiter, State.setGate, PerDir.set_set]
  rfl

/-- WAIT.d of an idle caller, not preempted, on a Signaled gate: the signal is consumed (R190; logs 15, 24). -/
theorem exec_wait_signaled {d : Dir} {s : State} (hi : s.idle s.caller = true) (hq : s.quantum = none)
    (hw : s.waiter.get d = none) (hg : s.gate.get d = .signaled) :
    exec (.wait d) s = .next ((consumeSignal d (some s.caller) s).returns s.caller .ok none) := by
  have hcaller : waiterFor d (newTask [] (.const .ok)) (s.setWaiter d (some s.caller)) = some s.caller := by
    rw [waiterFor_live (live_none rfl)]; simp
  have hblock : runMicros 15 (waitTask d) (s.setWaiter d (some s.caller)) =
      .done .ok none (consumeSignal d (some s.caller) s) := by
    have hlast := runMicros_went_last (n := 14) (t := newTask [] (.const .ok)) (s := s.setWaiter d (some s.caller)) (.inl rfl)
      (.waitBlock d hg) rfl
    rwa [hcaller, consumeSignal_setWaiter] at hlast
  simp only [exec, execWait, beginOperation_idle hi, runCallerTask, turnLength_none hq, runMicros_waitEnter hw, hblock]
  rfl

/-- WAIT.d of an idle caller, not preempted, on a Pending gate: the caller is held, with its waiter mark set (R190). -/
theorem exec_wait_pending {d : Dir} {s : State} (hi : s.idle s.caller = true) (hq : s.quantum = none)
    (hw : s.waiter.get d = none) (hg : s.gate.get d = .pending) :
    exec (.wait d) s = .next ((s.setWaiter d (some s.caller)).pauses s.caller (waitTask d)) := by
  simp only [exec, execWait, beginOperation_idle hi, runCallerTask, turnLength_none hq, runMicros_waitEnter hw]
  rw [runMicros_hold (t := waitTask d) (s := s.setWaiter d _) rfl (micro_waitBlock_pending hg)]
  rfl

/-- A second WAIT.d is refused (R190, U8). -/
theorem exec_wait_of_waiter {d : Dir} {s : State} (hi : s.idle s.caller = true) (hw : s.waiter.get d ≠ none) :
    exec (.wait d) s = .refused (.secondWaiter d) :=
  beginOperation_refuse hi ((micro_free rfl).trans (if_neg hw))

theorem blockedIn_pauses_waitTask (d : Dir) (k : Nat) (s : State) : blockedIn k d (s.pauses k (waitTask d)) = true :=
  (blockedIn_iff k d _).2 ⟨waitTask d, [], by simp, rfl⟩

/-- Settles O33: the three cases of WAIT.d as an operation, and of its two steps in any task. -/
theorem waitReturnsOrHolds : Obligations.WaitReturnsOrHolds := by
  refine ⟨fun d s hi hq => ⟨fun hw hg => ?_, fun hw hg => ?_, exec_wait_of_waiter hi⟩, fun d k tk s =>
    ⟨fun hw => went_micro (.inl rfl) (.waitEnter d k hw), fun hw => (micro_free rfl).trans (if_neg hw), micro_waitBlock_pending,
      fun hg => ⟨_, micro_waitBlock_signaled hg, rfl, rfl, rfl, rfl, rfl, rfl, fun hl d' => ?_⟩⟩⟩
  · rw [exec_wait_signaled hi hq hw hg]
    simp only [consumeSignal, noteWaited, Option.map_some, Option.some.injEq]
  · exact ⟨_, exec_wait_pending hi hq hw hg, blockedIn_pauses_waitTask d s.caller _, rfl, rfl, rfl, rfl, rfl, rfl⟩
  · rw [waiterFor_gone hl, consumeSignal_handle, noteWaited_none, PerDir.set_get]

/-! ## The single-shot gate and the other gate (R193, R194) -/

/-- Recording the same steps twice is recording them once. -/
theorem pauses_pauses (s : State) (k : Nat) (t : Task) : (s.pauses k t).pauses k t = s.pauses k t := by
  rw [State.pauses, pauses_setCaller, pauses_callerOf_same]
  rfl

/-- A caller held in its WAIT.d on a Pending gate is left as it is when it is resumed (R190, R195). -/
theorem resume_pauses_waitTask {d : Dir} {k : Nat} {s : State} (hg : s.gate.get d = .pending) :
    resume (.caller k) (s.pauses k (waitTask d)) = .next (s.pauses k (waitTask d)) := by
  rw [resume_held (s := s.pauses k (waitTask d)) (t := waitTask d) (by simp) rfl hg, pauses_pauses]

/-- After a WAIT.d that returned, its caller may issue another on a Pending gate (R190, R193; log 24). -/
theorem exec_wait_returns {d : Dir} {s : State} (hi : s.idle s.caller = true) (hq : s.quantum = none)
    (hw : s.waiter.get d = none) (hg : s.gate.get d = .signaled) :
    ∃ t, exec (.wait d) s = .next t ∧ t.caller = s.caller ∧ t.quantum = none ∧ (t.callerOf s.caller).result = some .ok ∧
      t.idle s.caller = true ∧ t.waiter.get d = none ∧ t.gate.get d = .pending :=
  ⟨_, exec_wait_signaled hi hq hw hg, rfl, rfl, by simp, by simp, by simp, by simp⟩

/-- Settles O34: the second SIGNAL.d finds the gate Signaled, the second WAIT.d finds it Pending again. -/
theorem gateIsSingleShot : Obligations.GateIsSingleShot := by
  intro d s hi hq hw _
  have hsignaled : (s.setGate d .signaled).gate.get d = .signaled := PerDir.get_set_same ..
  have hagain : (s.setGate d .signaled).setGate d .signaled = s.setGate d .signaled := by simp [State.setGate]
  obtain ⟨t, hreturn, hcaller, hquantum, hresult, hidle, hwaiter, hgate⟩ :=
    exec_wait_returns (s := s.setGate d .signaled) hi hq hw hsignaled
  have hheld := exec_wait_pending (hcaller ▸ hidle) hquantum hwaiter hgate
  rw [hcaller] at hheld
  exact ⟨_, _, t, _, exec_signal d s, (exec_signal d _).trans (congrArg _ hagain), rfl, hsignaled, hreturn, hresult, hidle, hgate,
    hheld, blockedIn_pauses_waitTask d _ _, hgate, resume_pauses_waitTask hgate⟩

/-- A caller held in WAIT.d that is resumed while the gate is Pending is still held (R190, R195). -/
theorem resume_held_blockedIn {k : Nat} {d : Dir} {s : State} (hb : blockedIn k d s = true) (hg : s.gate.get d = .pending) :
    ∃ t, resume (.caller k) s = .next t ∧ blockedIn k d t = true := by
  obtain ⟨tk, rest, htk, hto⟩ := (blockedIn_iff k d s).1 hb
  exact ⟨_, resume_held htk hto hg, (blockedIn_iff k d _).2 ⟨tk, rest, by simp, hto⟩⟩

/-- Settles O35: SIGNAL.d writes its own gate only, so a caller held in the other WAIT stays held (`resume_held_blockedIn`). -/
theorem gatesAreIndependent : Obligations.GatesAreIndependent := by
  intro d d' k s hd
  have hother : (s.setGate d .signaled).gate.get d' = s.gate.get d' := by simp [hd]
  refine ⟨exec_signal d s, hother, rfl, fun hb hg => ?_⟩
  exact resume_held_blockedIn (s := s.setGate d .signaled) hb (hother.trans hg)

/-! ## Only a signal ends a held WAIT (R195, R302) -/

/-- Whether a caller is blocked is read off its record. -/
theorem blockedIn_of_callerOf {k : Nat} {d : Dir} {s t : State} (hb : blockedIn k d s = true) (h : t.callerOf k = s.callerOf k) :
    blockedIn k d t = true := by
  simpa only [blockedIn, h] using hb

/-- The block is the next step of a blocked caller's operation. -/
theorem todo_of_blockedIn {k : Nat} {d : Dir} {s : State} {t : Task} (hb : blockedIn k d s = true)
    (ht : (s.callerOf k).task = some t) : ∃ rest, t.todo = .waitBlock d :: rest := by
  obtain ⟨t', rest, ht', hto⟩ := (blockedIn_iff k d s).1 hb
  obtain rfl := Option.some.inj (ht.symm.trans ht')
  exact ⟨rest, hto⟩

/-- A caller is blocked on one direction at most. -/
theorem blockedIn_unique {k : Nat} {d d' : Dir} {s : State} (h : blockedIn k d s = true) (h' : blockedIn k d' s = true) :
    d = d' := by
  obtain ⟨t, rest, ht, hto⟩ := (blockedIn_iff k d s).1 h
  obtain ⟨rest', hto'⟩ := todo_of_blockedIn h' ht
  rw [hto] at hto'
  cases hto'
  rfl

/-- A blocked caller has an operation in progress, so an idle one is another (R8). -/
theorem ne_of_idle_of_blockedIn {j k : Nat} {d : Dir} {s : State} (hi : s.idle j = true) (hb : blockedIn k d s = true) :
    j ≠ k := by
  rintro rfl
  obtain ⟨t, rest, ht, _⟩ := (blockedIn_iff j d s).1 hb
  simp [State.idle, ht] at hi

/-- A caller that is blocked in WAIT.d has no waiter mark but that of `d` (R42). -/
theorem State.waitersBlocked.waiter_of_blockedIn {k : Nat} {d d' : Dir} {s : State} (hs : s.waitersBlocked)
    (hb : blockedIn k d s = true) (hw : s.waiter.get d' = some k) : d' = d := by
  obtain ⟨hmarks, _⟩ := hs
  obtain ⟨t, ht, hc⟩ := hmarks d' k hw
  obtain ⟨rest, hto⟩ := todo_of_blockedIn hb ht
  exact clearsMark_unique hc (by simp [hto, clearsMark])

/-- A turn of a reaction writes the record of no caller: it makes no session reset (R5, R254). -/
theorem runHandlerTask_callerOf {l : Line} {tk : Task} {s t : State} (htk : neverWaits tk.todo = true)
    (h : runHandlerTask l tk s = .next t) (k : Nat) : t.callerOf k = s.callerOf k := by
  have key := turn_frame neverWaits_closed (fun u => u.callerOf k = s.callerOf k) (fun m t u t' u' hm hu hgo => ?_) (turnLength s)
    tk s ((neverWaits_iff _).1 htk) rfl
  · rcases runHandlerTask_next h with ⟨r, dst, u, hu, rfl⟩ | ⟨tk', u, hu, rfl⟩
    · exact key.1 r dst u hu
    · exact key.2 tk' u hu
  · rw [← hu]
    exact (went_callerOf (micro_went hgo).2 k).resolve_right (by rintro ⟨⟨d, j, rfl, _⟩, _⟩; cases hm)

/-- An operation leaves a caller blocked in WAIT.d blocked, but for that caller's own ABORT.d (R174, R195). -/
theorem exec_blockedIn {k : Nat} {d : Dir} {i : Instr} {s t : State} (hb : blockedIn k d s = true) (h : exec i s = .next t) :
    blockedIn k d t = true ∨ (i = .abort d ∧ s.caller = k ∧ s.hasTimeout = true) := by
  by_cases hk : s.caller = k
  · rcases exec_next h with ⟨d', _, rfl⟩ | ⟨_, hi, _⟩ | ⟨_, hbegin, _, _⟩ | ⟨l, rfl, _, _, h⟩
    · exact .inl hb
    · exact absurd hk (ne_of_idle_of_blockedIn hi hb)
    · rcases hbegin with hi | ⟨d', rfl, ht, _, _, hb'⟩
      · exact absurd hk (ne_of_idle_of_blockedIn hi hb)
      · obtain rfl := blockedIn_unique hb (hk ▸ hb')
        exact .inr ⟨rfl, hk, ht⟩
    · exact .inl (blockedIn_of_callerOf hb (runHandlerTask_callerOf (stepsOf_neverWaits l s) h k))
  · obtain ⟨hothers, _⟩ := exec_records h
    exact .inl (blockedIn_of_callerOf hb (hothers k (Ne.symm hk)))

/-- A caller's issue leaves `k` blocked in WAIT.d, but for `k`'s own ABORT.d (R174, R195). -/
theorem issue_blockedIn {k j : Nat} {d : Dir} {surface : Surface} {bytes : List Byte} {s t : State} (hb : blockedIn k d s = true)
    (h : issue j surface bytes s = .next t) :
    blockedIn k d t = true ∨
      (s.hasTimeout = true ∧ j = k ∧ surface = .procedure ∧ decode surface bytes = .ok (.abort d)) := by
  replace hb : blockedIn k d { s with caller := j } = true := hb
  simp only [issue] at h
  split at h
  · next i hd =>
    split at h
    · cases h
    · refine (exec_blockedIn hb h).imp_right ?_
      rintro ⟨rfl, hjk, ht⟩
      exact ⟨ht, hjk, (decode_surface hd).symm, hd⟩
  · obtain ⟨hi, rfl⟩ := raiseError_next h
    exact .inl (blockedIn_of_callerOf hb (returns_callerOf_other _ _ _ _ _ (ne_of_idle_of_blockedIn hi hb).symm))
  · cases h

/-- The event context's operations leave a blocked caller blocked: none is an ABORT.d (R5, R259). -/
theorem issueByEvent_blockedIn {k : Nat} {d : Dir} {surface : Surface} {bytes : List Byte} {s t : State}
    (hb : blockedIn k d s = true) (h : issueByEvent surface bytes s = .next t) : blockedIn k d t = true := by
  simp only [issueByEvent] at h
  split at h
  · split at h
    · next he =>
      refine (exec_blockedIn hb h).resolve_right ?_
      rintro ⟨rfl, _⟩
      cases d <;> cases he
    · cases h
  · cases h

/-- A reaction that goes on leaves a blocked caller blocked. -/
theorem resume_handler_blockedIn {k : Nat} {d : Dir} {l : Line} {s t : State} (hs : s.waitersBlocked) (hb : blockedIn k d s = true)
    (h : resume (.handler l) s = .next t) : blockedIn k d t = true := by
  simp only [resume] at h
  split at h
  · cases h; exact hb
  · next tk htk =>
    obtain ⟨_, _, hreactions⟩ := hs
    exact blockedIn_of_callerOf hb (runHandlerTask_callerOf (hreactions l tk htk) h k)

/-- Caller `k` is still blocked in WAIT.d, or a caller `j` of its session has ended its operation, which has returned nothing, by a
session reset while `k` had the waiter mark of `d` in `s` (R282; log 20). -/
def blockedOrReset (d : Dir) (k j : Nat) (s t : State) : Prop :=
  blockedIn k d t = true ∨
    ((t.callerOf k).task = none ∧ (t.callerOf k).result = none ∧ s.waiter.get d = some k ∧ sessionOf j = sessionOf k)

/-- `blockedOrReset` speaks of the later state's record of `k` only. -/
theorem blockedOrReset.congr {d : Dir} {k j : Nat} {s t t' : State} (h : blockedOrReset d k j s t)
    (hk : t'.callerOf k = t.callerOf k) : blockedOrReset d k j s t' := by
  unfold blockedOrReset
  rw [hk]
  exact h.imp_left fun hb => blockedIn_of_callerOf hb hk

/-- A step of another caller sets no waiter mark for `k` (R190). -/
theorem went_waiter_other {d : Dir} {j k : Nat} {m : Micro} {t t' : Task} {s s' : State} (h : Went t s m t' s') (hjk : j ≠ k)
    (ho : waitsInOrder j (m :: t.todo) = true) (hw : s'.waiter.get d = some k) : s.waiter.get d = some k := by
  rcases went_waiter h d with e | e | ⟨i, rfl, e⟩
  · rw [← e, hw]
  · rw [e] at hw; cases hw
  · obtain ⟨rfl, _⟩ := waitsInOrder_waitEnter ho
    exact absurd (Option.some.inj (e.symm.trans hw)) hjk

/-- What holds of `k`, blocked in WAIT.d in `s`, in the course of a turn of another caller `j`: the invariant with the steps `j` has left,
and no waiter mark for `k` that it did not have in `s`. -/
structure OthersTurn (d : Dir) (k j : Nat) (s : State) (t : Task) (u : State) : Prop where
  marks : (u.pauses j t).waitersBlocked
  noNewMark : u.waiter.get d = some k → s.waiter.get d = some k
  held : blockedOrReset d k j s u

/-- A step of another caller leaves `k` blocked, or ends its operation by a reset of their session (R282; log 20). -/
theorem went_blockedOrReset {d : Dir} {j k : Nat} {m : Micro} {t t' : Task} {s u u' : State} (h : Went t u m t' u')
    (ho : waitsInOrder j (m :: t.todo) = true) (hmark : ∀ d', u.waiter.get d' = some k → blockedIn k d u = true →
      s.waiter.get d = some k) (hb : blockedOrReset d k j s u) : blockedOrReset d k j s u' := by
  rcases went_callerOf h k with e | ⟨⟨d', i, rfl, hw⟩, htask, hresult⟩
  · exact hb.congr e
  · refine .inr ⟨htask, hresult, ?_⟩
    rcases hb with hb | ⟨_, _, hgone⟩
    · obtain rfl : i = j := by simp_all [waitsInOrder]
      cases h with
      | resetDirection _ _ free => exact ⟨hmark d' hw hb, Eq.symm (by simpa [foreignWait, hw] using free d')⟩
    · exact hgone

/-- A step keeps what holds in the course of another caller's turn. -/
theorem went_othersTurn {d : Dir} {j k : Nat} {m : Micro} {rest : List Micro} {t t' : Task} {s u u' : State} (hjk : j ≠ k)
    (hu : OthersTurn d k j s t u) (ht : t.todo = m :: rest) (h : Went { t with todo := rest } u m t' u') :
    OthersTurn d k j s t' u' := by
  obtain ⟨hmarks, hnew, hheld⟩ := hu
  have horder : waitsInOrder j (m :: rest) = true := by
    obtain ⟨_, horders, _⟩ := hmarks
    exact ht ▸ horders j t (by simp)
  refine ⟨went_waitersBlocked ht h hmarks, fun hw => hnew (went_waiter_other h hjk horder hw),
    went_blockedOrReset h horder (fun d' hw hb => ?_) hheld⟩
  obtain rfl := hmarks.waiter_of_blockedIn (blockedIn_of_callerOf hb (pauses_callerOf_other _ _ _ _ hjk.symm)) hw
  exact hnew hw

/-- A turn of another caller leaves `k` blocked in WAIT.d, or ends its operation by a reset of their session (R195, R282). -/
theorem runCallerTask_blockedOrReset {d : Dir} {j k : Nat} {tk : Task} {s t : State} (hjk : j ≠ k)
    (hs : (s.pauses j tk).waitersBlocked) (hb : blockedIn k d s = true) (h : runCallerTask j tk s = .next t) :
    blockedOrReset d k j s t := by
  have key := runMicros_induct (OthersTurn d k j s) (fun _ _ _ _ _ _ ht hu hgo => went_othersTurn hjk hu ht (micro_went hgo).2)
    (turnLength s) tk s ⟨hs, id, .inl hb⟩
  rcases runCallerTask_next h with ⟨r, dst, u, hu, rfl⟩ | ⟨tk', u, hu, rfl⟩
  · obtain ⟨_, hend⟩ := key.1 r dst u hu
    exact hend.held.congr (returns_callerOf_other _ _ _ _ _ hjk.symm)
  · exact (key.2 tk' u hu).held.congr (pauses_callerOf_other _ _ _ _ hjk.symm)

/-- A caller blocked in WAIT.d has no `atomic_d` block next, and another agent's leaves it blocked. -/
theorem openBlock_blockedIn {d : Dir} {k : Nat} {a : Agent} {s t : State} (hb : blockedIn k d s = true)
    (h : openBlock a s = .next t) : blockedIn k d t = true := by
  rcases openBlock_next h with ⟨j, tk, tk', u, rfl, htk, ho, rfl⟩ | ⟨l, tk, tk', u, rfl, htk, ho, rfl⟩ <;>
    obtain ⟨_, hcallers, _⟩ := openedTask_agents ho
  · have hjk : k ≠ j := by
      rintro rfl
      obtain ⟨rest, hto⟩ := todo_of_blockedIn hb htk
      obtain ⟨_, _, _, _, hto', _⟩ := openedTask_some ho
      rw [hto] at hto'
      cases hto'
    exact blockedIn_of_callerOf hb (by rw [pauses_callerOf_other _ _ _ _ hjk, State.callerOf, hcallers]; rfl)
  · exact blockedIn_of_callerOf hb (by simp [State.callerOf, hcallers])

/-- A caller blocked in WAIT.d has no copy next, and another caller's leaves it blocked (R67). -/
theorem partCopy_blockedIn {d : Dir} {j k n : Nat} {s t : State} (hb : blockedIn k d s = true) (h : partCopy j n s = .next t) :
    blockedIn k d t = true := by
  obtain ⟨tk, tk', u, htk, hp, rfl⟩ := partCopy_next h
  obtain ⟨_, hcallers, _⟩ := partTask_agents hp
  have hjk : k ≠ j := by
    rintro rfl
    obtain ⟨rest, hto⟩ := todo_of_blockedIn hb htk
    rcases (partTask_some hp).2 with ⟨_, _, _, hto', _⟩ | ⟨_, _, _, hto', _⟩ <;> rw [hto] at hto' <;> cases hto'
  exact blockedIn_of_callerOf hb (by rw [pauses_callerOf_other _ _ _ _ hjk, State.callerOf, hcallers]; rfl)

/-- Settles O36, by the move: an issue by `issue_blockedIn`, a turn of another caller by `runCallerTask_blockedOrReset`, the caller's own
turn by `resume_held_blockedIn`; the other moves leave its record. -/
theorem heldWaitNeedsASignal : Obligations.HeldWaitNeedsASignal := by
  intro d k m s t hs hb hg h
  have byReset : ∀ {j : Nat} {Q : Prop}, (m = .sessionReset j ∨ m = .resume (.caller j)) → j ≠ k → blockedOrReset d k j s t →
      blockedIn k d t = true ∨ ((t.callerOf k).task = none ∧ (t.callerOf k).result = none ∧ s.waiter.get d = some k ∧
        ∃ j, j ≠ k ∧ sessionOf j = sessionOf k ∧ (m = .sessionReset j ∨ m = .resume (.caller j))) ∨ Q :=
    fun hm hjk => Or.imp_right fun ⟨htask, hresult, hw, hses⟩ => .inl ⟨htask, hresult, hw, _, hjk, hses, hm⟩
  cases m with
  | issue j surface bytes =>
    rcases issue_blockedIn hb h with hb' | ⟨ht, rfl, rfl, hd⟩
    · exact .inl hb'
    · exact .inr (.inr ⟨ht, bytes, rfl, hd⟩)
  | issueByEvent surface bytes => exact .inl (issueByEvent_blockedIn hb h)
  | resume a =>
    cases a with
    | caller j =>
      by_cases hjk : j = k
      · subst hjk
        obtain ⟨u, hu, hb'⟩ := resume_held_blockedIn hb hg
        cases hu.symm.trans h
        exact .inl hb'
      · simp only [takeMove, resume] at h
        split at h
        · cases h; exact .inl hb
        · next tk htk =>
          exact byReset (.inr rfl) hjk
            (runCallerTask_blockedOrReset hjk (pauses_waitersBlocked_of_task hs htk (fun _ => id) id) hb h)
    | handler l => exact .inl (resume_handler_blockedIn hs hb h)
  | openBlock a => exact .inl (openBlock_blockedIn hb h)
  | partCopy j n => exact .inl (partCopy_blockedIn hb h)
  | sessionReset j =>
    simp only [takeMove, sessionReset] at h
    split at h
    · next hi =>
      have hjk := ne_of_idle_of_blockedIn hi hb
      exact byReset (.inl rfl) hjk
        (runCallerTask_blockedOrReset hjk (pauses_waitersBlocked_of_idle hs hi (sessionResetSteps_waitsInOrder j)) hb h)
    · cases h
  | device x =>
    obtain ⟨hcallers, _⟩ := deviceMove_agents h
    exact .inl (blockedIn_of_callerOf hb (by simp only [State.callerOf, hcallers]))
  | preempt | allocator | source | destination => cases h; exact .inl hb

/-! ## The woken caller finds the ready bit clear (R196, R292) -/

/-- Where a completion reaction of `d` stands, by the steps it has left: what it has cleared and acknowledged before is still so, and
until its last step the gate is Pending (R250, R251, R292). -/
inductive Reacting (d : Dir) (s : State) : List Micro → Prop
  | entering (gate : s.gate.get d = .pending) :
      Reacting d s [.enter, .rmw d .clearReady, .ack (completionLine d), .signal d]
  | clearing (gate : s.gate.get d = .pending) : Reacting d s [.rmw d .clearReady, .ack (completionLine d), .signal d]
  | writing (o : OpenBlock) (opened : s.opened.get d = some o) (cleared : o.word.getLsbD 0 = false)
      (gate : s.gate.get d = .pending) : Reacting d s [.putReady d o.id, .ack (completionLine d), .signal d]
  | acknowledging (ready : s.ready d = false) (gate : s.gate.get d = .pending) :
      Reacting d s [.ack (completionLine d), .signal d]
  | signalling (ready : s.ready d = false) (pending : s.pending.get (completionLine d) = false)
      (gate : s.gate.get d = .pending) : Reacting d s [.signal d]
  | done (ready : s.ready d = false) (pending : s.pending.get (completionLine d) = false) : Reacting d s []

/-- The write of a block that clears the ready bit clears it (R93, R263). -/
theorem closeBlock_ready_false {d : Dir} {s : State} {o : OpenBlock} (ho : s.opened.get d = some o)
    (hword : o.word.getLsbD 0 = false) : (closeBlock d o.id s).ready d = false := by
  rcases closeBlock_cases d o.id s with ⟨_, e⟩ | ⟨hno, _⟩
  · rw [e, closeOpen_some ho, State.ready, State.setOpened_reg, State.setReg_reg_same, hword]
  · exact absurd rfl (hno o ho)

/-- Each step of a completion reaction takes it to the next point (R250, R251). -/
theorem went_reacting {d : Dir} {m : Micro} {rest : List Micro} {t t' : Task} {s s' : State} (hr : Reacting d s (m :: rest))
    (h : Went { t with todo := rest } s m t' s') : Reacting d s' t'.todo := by
  cases hr with
  | entering gate => cases h; exact .clearing gate
  | clearing gate =>
    cases h
    refine .acknowledging ?_ (by simpa using gate)
    rw [State.ready, updateReady_reg_same, applyReadyUpdate_bit0]
  | writing o opened cleared gate => cases h; exact .acknowledging (closeBlock_ready_false opened cleared) (by simpa using gate)
  | acknowledging ready gate => cases h; exact .signalling ready (by simp) gate
  | signalling ready pending gate => cases h; exact .done ready pending

/-- Once a reaction has signalled, the ready bit is 0 and the event acknowledged. -/
theorem Reacting.cleared {d : Dir} {s : State} {todo : List Micro} (hr : Reacting d s todo)
    (h : todo = [] ∨ s.gate.get d = .signaled) : s.ready d = false ∧ s.pending.get (completionLine d) = false := by
  cases hr with
  | done ready pending => exact ⟨ready, pending⟩
  | _ => simp_all

/-- A turn of a completion reaction that signals the gate leaves the ready bit 0 and the event acknowledged, preempted or not. -/
theorem runHandlerTask_cleared {d : Dir} {l : Line} {tk : Task} {s t : State} (hr : Reacting d s tk.todo)
    (h : runHandlerTask l tk s = .next t) (hg : t.gate.get d = .signaled) :
    t.ready d = false ∧ t.pending.get (completionLine d) = false := by
  have step : ∀ m rest (t : Task) (s : State) t' s', t.todo = m :: rest → Reacting d s t.todo →
      micro m { t with todo := rest } s = .go t' s' → Reacting d s' t'.todo :=
    fun _ _ _ _ _ _ ht hr hm => went_reacting (ht ▸ hr) (micro_went hm).2
  rcases runHandlerTask_next h with ⟨r, dst, u, hu, rfl⟩ | ⟨tk', u, hu, rfl⟩
  · obtain ⟨tk', hr', hend⟩ := runMicros_done_induct (fun t s => Reacting d s t.todo) step hr hu
    refine hr'.cleared (.inl (hend.resolve_right ?_))
    rintro ⟨d', len, rest, e⟩
    rw [e] at hr'
    cases hr'
  · exact ((runMicros_induct (fun t s => Reacting d s t.todo) step _ _ _ hr).2 _ _ hu).cleared (.inr hg)

/-- A reaction with steps of its rule left, and with what it has done before still done, stands at one of the points. -/
theorem reacting_of_suffix {d : Dir} {todo : List Micro} {s : State} (hg : s.gate.get d = .pending)
    (h : todo <:+ completionSteps d ∨ (∃ id, todo = [.putReady d id, .ack (completionLine d), .signal d] ∧
      ∃ o, s.opened.get d = some o ∧ o.id = id ∧ o.word.getLsbD 0 = false))
    (hready : todo <:+ [.ack (completionLine d), .signal d] → s.ready d = false)
    (hpending : todo <:+ [.signal d] → s.pending.get (completionLine d) = false) : Reacting d s todo := by
  rcases h with h | ⟨_, rfl, o, ho, rfl, hword⟩
  · simp only [completionSteps, List.suffix_cons_iff, List.suffix_nil] at h
    rcases h with rfl | rfl | rfl | rfl | rfl
    · exact .entering hg
    · exact .clearing hg
    · exact .acknowledging (hready (List.suffix_refl _)) hg
    · exact .signalling (hready (List.suffix_cons _ _)) (hpending (List.suffix_refl _)) hg
    · exact .done (hready List.nil_suffix) (hpending List.nil_suffix)
  · exact .writing o ho hword hg

/-- One step of a caller blocked in WAIT.d on a Signaled gate consumes the signal and touches no register and no line (R190). -/
theorem resume_blocked_signaled {d : Dir} {k : Nat} {t u : State} (hg : t.gate.get d = .signaled) (hb : blockedIn k d t = true)
    (h : resume (.caller k) { t with quantum := some 0 } = .next u) :
    u.csr = t.csr ∧ u.pending = t.pending ∧ u.gate = t.gate.set d .pending := by
  obtain ⟨tk, rest, htk, hto⟩ := (blockedIn_iff k d t).1 hb
  rw [resume_caller (s := { t with quantum := some 0 }) htk] at h
  have hgo := micro_waitBlock_signaled (t := { tk with todo := rest }) (s := { t with quantum := some 0 }) hg
  rw [runCallerTask, show turnLength { t with quantum := some 0 } = 0 + 1 from rfl] at h
  by_cases he : rest = []
  · rw [runMicros_last hto hgo he] at h; cases h; simp
  · rw [runMicros_more hto hgo he] at h; cases h; simp

/-- Settles O37: a completion event's turn by the points of its reaction, and the step in which WAIT.d returns. -/
theorem wokenCallerSeesReadyClear : Obligations.WokenCallerSeesReadyClear := by
  refine ⟨fun d s t hg h ht => ?_, fun d s t tk htk hsteps hready hpending hg h ht => ?_, fun d k t u hr hp hg hb h => ?_⟩
  · rw [exec_completionOf] at h
    obtain ⟨_, _, h⟩ := dispatchEvent_next h
    exact runHandlerTask_cleared (.entering hg) h ht
  · rw [resume_handler htk] at h
    exact runHandlerTask_cleared (reacting_of_suffix hg hsteps hready hpending) h ht
  · obtain ⟨hcsr, hpend, hgate⟩ := resume_blocked_signaled hg hb h
    exact ⟨by rwa [State.ready, State.reg, hcsr], hpend ▸ hp, by simp [hgate]⟩

end Sys2Proof.Machine
end

section
/-! Proofs for 43_control_query.md: the command surface and its unknown codes (R213, R245), the status queries (R200 to R205), the done
flags (R208 to R211), the offset commands (R206, R207, R232), what a command leaves alone (R212), and the half-words of READY (R216). -/

namespace Sys2Proof.Machine

/-! ## The command surface (R98, R213, R245) -/

/-- The codes 0x00 to 0x0B are the commands (R98). -/
theorem commandOf_of_le {code : Nat} (arg : DWord) (h : code ≤ 0x0B) : ∃ i, commandOf code arg = .ok i := by
  interval_cases code <;> exact ⟨_, rfl⟩

/-- No other code is a command (R98, R213). -/
theorem commandOf_of_gt {code : Nat} (arg : DWord) (h : 0x0B < code) : commandOf code arg = .error .unknownCommand := by
  obtain ⟨n, rfl⟩ := Nat.exists_eq_add_of_lt h
  rw [show 0x0B + n + 1 = n + 12 by omega]
  rfl

/-- A caller may issue every command: none is an operation of the event context (R259). -/
theorem eventOnly_of_surface_command {i : Instr} (h : i.surface = .command) : eventOnly i = false := by
  rw [Bool.eq_false_iff, ne_eq, eventOnly_iff]
  rintro (he | ⟨d, rfl⟩)
  · rw [h] at he; cases he
  · cases h

/-- The step of a caller's issue of an unknown command code (R213). -/
theorem step_issue_unknownCommand {s : State} {k : Nat} {surface : Surface} {bytes : List Byte} {rest : List Move}
    (hs : s.schedule = .issue k surface bytes :: rest) (hd : decode surface bytes = .error .unknownCommand) :
    step s = unknownCommand { s with schedule := rest, caller := k } := by
  simp only [step, takeNext, hs, takeMove, issue, hd]

/-- Settles O3: a code up to 0x0B decodes to a command, which the step runs; any other is answered with the error. -/
theorem unknownCommandIsUnsupported : Obligations.UnknownCommandIsUnsupported := by
  intro s k rest a0 a1 a2 a3 a4 a5 a6 a7 code hs
  split
  · next hcode =>
    obtain ⟨i, hi⟩ := commandOf_of_le (joinDWord a0 a1 a2 a3 a4 a5 a6 a7) hcode
    have hd : decode .command [a0, a1, a2, a3, a4, a5, a6, a7, code] = .ok i := hi
    have hsurface := decode_surface hd
    exact ⟨i, hsurface, by rw [step_issue hs hd, eventOnly_of_surface_command hsurface, if_neg Bool.false_ne_true]⟩
  · next hcode =>
    intro hidle
    rw [step_issue_unknownCommand hs (commandOf_of_gt _ (Nat.lt_of_not_le hcode))]
    exact if_pos hidle

/-! ## The status queries (R200 to R205) -/

/-- A turn long enough makes all of an operation's reads of status words and ends it: the result is made from the words the device
drives (R110, R114). -/
theorem runMicros_statusReads {rs : List DReg} {n : Nat} {t : Task} {s : State} (hne : rs ≠ []) (hn : rs.length ≤ n)
    (ht : t.todo = rs.map fun r => .read (.d r)) :
    runMicros n t s = .done (makeResult t.fin (t.vals ++ rs.map s.devStatus)) t.dst s := by
  induction rs generalizing n t with
  | nil => exact absurd rfl hne
  | cons r rs ih =>
    obtain ⟨n, rfl⟩ : ∃ m, n = m + 1 := ⟨n - 1, by simp only [List.length_cons] at hn; omega⟩
    have ht : t.todo = .read (.d r) :: rs.map fun r => .read (.d r) := ht
    have hm := went_micro (t := { t with todo := rs.map fun r => .read (.d r) }) (s := s) (.inl rfl) (.read (.d r))
    cases rs with
    | nil => exact runMicros_last ht hm rfl
    | cons r' rs =>
      refine (runMicros_more ht hm (by simp)).trans ((ih (by simp) (by simpa using hn) rfl).trans ?_)
      simp [regRead]

/-- A query of an idle caller, whose turn is long enough for its reads (R200 to R205). -/
theorem beginOperation_statusReads {rs : List DReg} {fin : Finish} {s : State} (hi : s.idle s.caller = true) (hne : rs ≠ [])
    (hn : rs.length ≤ turnLength s) :
    beginOperation (rs.map fun r => .read (.d r)) fin s =
      .next (s.returns s.caller (makeResult fin (rs.map s.devStatus)) none) := by
  rw [beginOperation_idle hi, runCallerTask, runMicros_statusReads hne hn rfl]
  rfl

/-- A query that reads one word ends in its first step, which no preemption comes before (R202 to R205). -/
theorem beginOperation_statusRead (r : DReg) (fin : Finish) {s : State} (hi : s.idle s.caller = true) :
    beginOperation [.read (.d r)] fin s = .next (s.returns s.caller (makeResult fin [s.devStatus r]) none) := by
  obtain ⟨n, hn⟩ := turnLength_pos s
  exact beginOperation_statusReads (rs := [r]) hi (by simp) (by simp [hn])

/-- Settles O16: one read each, and the fields of its word by the codecs' bits (R85, R86). -/
theorem statusQueriesReturn : Obligations.StatusQueriesReturn := by
  refine ⟨fun _ _ _ _ _ _ _ _ => ⟨rfl, rfl, rfl, rfl⟩, fun s hi => ?_⟩
  obtain ⟨hresolution, _⟩ := resolutionCodec.1 (s.devStatus .rawResolution)
  obtain ⟨hmode, hformat, hfps⟩ := usecaseCodec.1 (s.devStatus .usecaseMode)
  refine ⟨(beginOperation_statusRead .rawResolution .resolution hi).trans ?_,
    (beginOperation_statusRead .usecaseMode .mode hi).trans ?_, (beginOperation_statusRead .usecaseMode .fps hi).trans ?_,
    (beginOperation_statusRead .usecaseMode .format hi).trans ?_⟩ <;>
    simp only [makeResult, List.getD_cons_zero, hresolution, hmode, hfps, hformat]

/-- The file length is the high word above the low one (R84, R92). -/
theorem assembleLength_eq_append (lo hi : Word) : assembleLength lo hi = hi ++ lo := by
  apply BitVec.eq_of_getLsbD_eq
  intro i h
  rw [assembleLength, BitVec.getLsbD_or, BitVec.getLsbD_shiftLeft, BitVec.getLsbD_setWidth, BitVec.getLsbD_setWidth,
    BitVec.getLsbD_append]
  by_cases hlo : i < 32
  · simp [hlo, h]
  · simp [hlo, h, BitVec.getLsbD_of_ge lo i (by omega), show i - 32 < 64 by omega]

/-- GET_FILE_LENGTH of an idle caller, not preempted (R200). -/
theorem exec_getFileLength {s : State} (hi : s.idle s.caller = true) (hq : s.quantum = none) :
    exec .getFileLength s =
      .next (s.returns s.caller (.length (s.devStatus .readFileLengthHi ++ s.devStatus .readFileLength)) none) := by
  rw [← assembleLength_eq_append]
  exact beginOperation_statusReads (rs := [.readFileLength, .readFileLengthHi]) hi (by simp) (by simp [hq])

/-- What is left of GET_FILE_LENGTH once it has read the low word (R200). -/
def lengthTask (lo : Word) : Task :=
  { newTask [.read (.d .readFileLengthHi)] .fileLength with vals := [lo] }

/-- GET_FILE_LENGTH of an idle caller, preempted after its first read: the low word is kept (R200, R297). -/
theorem exec_getFileLength_preempted {s : State} (hi : s.idle s.caller = true) (hq : s.quantum = some 0) :
    exec .getFileLength s = .next (s.pauses s.caller (lengthTask (s.devStatus .readFileLength))) := by
  have hread := runMicros_went (n := 0) (t := newTask [.read (.d .readFileLengthHi)] .fileLength) (s := s) (.inl rfl)
    (.read (.d .readFileLength)) (by simp [newTask])
  simp only [exec, execGetFileLength, beginOperation_idle hi, runCallerTask, turnLength, hq]
  exact congrArg _ hread

/-- GET_FILE_LENGTH resumed after its first read, not preempted again: the high word is the one driven now (R200, R297). -/
theorem resume_lengthTask {k : Nat} {lo : Word} {s : State} (htask : (s.callerOf k).task = some (lengthTask lo))
    (hq : s.quantum = none) :
    resume (.caller k) s = .next (s.returns k (.length (s.devStatus .readFileLengthHi ++ lo)) none) := by
  rw [resume_caller htask, runCallerTask, runMicros_statusReads (rs := [.readFileLengthHi]) (by simp) (by simp [hq]) rfl,
    ← assembleLength_eq_append]
  rfl

/-- Settles O17: both reads in one turn, or the low word before the device's drives and the high word after them. -/
theorem fileLengthMayBeTorn : Obligations.FileLengthMayBeTorn := by
  refine ⟨fun s hi hq => exec_getFileLength hi hq, fun s lo hi hidle hq => ?_⟩
  refine ⟨_, _, _, _, exec_getFileLength_preempted hidle hq, rfl, rfl,
    resume_lengthTask (lo := s.devStatus .readFileLength) (by simp) (by simp), ?_⟩
  simp

/-- A field of `w` bits of the word of all ones (R80). -/
theorem fieldGet_allOnes {lo w : Nat} (h : lo + w ≤ 32) : fieldGet (BitVec.allOnes 32) lo w = BitVec.ofNat 32 (2 ^ w - 1) := by
  apply BitVec.eq_of_getLsbD_eq
  intro i hi
  rw [fieldGet_getLsbD _ _ _ _ hi, BitVec.getLsbD_allOnes, ← fieldMask, fieldMask_getLsbD _ _ hi]
  by_cases hw : i < w
  · simp [show lo + i < 32 by omega]
  · simp [hw]

/-- Every entry of the table is a range of R80: it has a bit, and lies inside its word (R88). -/
theorem encFieldWidth_range (f : EncField) : 1 ≤ encFieldWidth f ∧ f.lo.val + encFieldWidth f ≤ 32 := by
  have hlo := f.lo.isLt
  simp only [encFieldWidth]
  omega

/-- Field `k` of the decoded parameters is entry `k` of the table, read from its word (R88). -/
theorem decodeEncodingParametersBy_get (table : EncFieldTable) (w1 w2 w3 w4 w5 : Word) (k : Fin 13) :
    (decodeEncodingParametersBy table w1 w2 w3 w4 w5)[k] = decodeEncField #v[w1, w2, w3, w4, w5] table[k] := by
  simp [decodeEncodingParametersBy]

/-- Where all five words are the same, a field is its bit range of that word. -/
theorem decodeEncField_same (w : Word) (f : EncField) :
    decodeEncField #v[w, w, w, w, w] f = (f.name, fieldGet w f.lo.val (encFieldWidth f)) := by
  have hword : ∀ i : Fin 5, #v[w, w, w, w, w][i] = w := by
    intro i
    fin_cases i <;> rfl
  rw [decodeEncField, hword]

/-- The block's own table has the disjoint ranges R88 asks for (log 6). -/
theorem legalTable_encTable : legalTable encTable = true := by
  rw [encTable]
  split
  · assumption
  · decide

theorem disjointFields_iff (f g : EncField) :
    disjointFields f g = true ↔ f.word ≠ g.word ∨ f.lo.val + encFieldWidth f ≤ g.lo.val ∨
      g.lo.val + encFieldWidth g ≤ f.lo.val := by
  simp only [disjointFields, Bool.or_eq_true, decide_eq_true_eq, or_assoc]

/-- Settles O18: the five reads; the field of each entry; zero and all ones in every field; and the table's legality. -/
theorem encParamsReturn : Obligations.EncParamsReturn := by
  refine ⟨fun s hi hq => ?_, decodeEncodingParametersBy_get, fun table k => ?_, fun i j hij hword => ?_⟩
  · exact beginOperation_statusReads (rs := [.encParams1, .encParams2, .encParams3, .encParams4, .encParams5]) hi (by simp)
      (by simp [hq])
  · obtain ⟨hpos, hinside⟩ := encFieldWidth_range table[k]
    refine ⟨hpos, hinside, ?_, ?_⟩ <;> rw [decodeEncodingParametersBy_get, decodeEncField_same]
    · exact fieldGet_zero _ _
    · exact fieldGet_allOnes hinside
  · have hlegal : disjointFields encTable[i] encTable[j] = true := of_decide_eq_true legalTable_encTable i j hij
    exact ((disjointFields_iff _ _).1 hlegal).resolve_left (not_not_intro hword)

/-! ## The done flags (R208 to R211) -/

/-- Settles O21: each command is the raw write of its value to the done register. -/
theorem doneFlagCommands : Obligations.DoneFlagCommands := by
  refine ⟨fun _ _ _ _ _ _ _ _ => ⟨rfl, rfl, rfl, rfl⟩, fun s hi => ?_, fun s d => ?_⟩
  · have hwrite : ∀ r v, beginOperation [.write (.s r) v] (.const .ok) s = .next ((s.setReg r v).returns s.caller .ok none) :=
      fun r v => (exec_csrWr (.s r) v s).symm.trans (exec_csrWr_of_ok hi rfl)
    exact ⟨hwrite .readTransferDone doneMark, hwrite .readTransferDone doneClear, hwrite .writeTransferDone doneMark,
      hwrite .writeTransferDone doneClear⟩
  · simp [State.done, doneMark, doneClear]

/-! ## The offset commands (R206, R207, R232) -/

/-- The new high half-word above the kept low one (R93). -/
theorem putOffHi_eq_append (v : Word) (h : Half) : putOffHi v h = h ++ v.extractLsb' 0 16 := by
  apply BitVec.eq_of_getLsbD_eq
  intro i hi
  rw [putOffHi_getLsbD _ _ _ hi, BitVec.getLsbD_append, BitVec.getLsbD_extractLsb']
  split
  · next hlo => simp [hlo]
  · rfl

/-- SET_d_OFFSET as its two register writes (R206, R207). -/
theorem offsetSet_eq_setReg (d : Dir) (o : DWord) (s : State) :
    offsetSet d o s = (s.setReg (offsetReg d) ((o.extractLsb' 0 16).setWidth 32)).setReg (readyReg d)
      (o.extractLsb' 16 16 ++ (s.reg (readyReg d)).extractLsb' 0 16) := by
  rw [offsetSet, updateReady, applyReadyUpdate_putOffHi, putOffHi_eq_append,
    State.setReg_reg_other _ _ _ _ (readyReg_ne_offsetReg d d)]
  rfl

/-- Settles O19: the two writes of SET_d_OFFSET, and SEEK has the steps of SET_READ_OFFSET. -/
theorem offsetCommands : Obligations.OffsetCommands :=
  fun o s hi hq => ⟨fun d ho => offsetSet_eq_setReg d o s ▸ exec_setOffsetOf_idle hi hq ho, rfl⟩

/-! ## What a command leaves alone (R212) -/

/-- No rule lets a command change a slot, a buffer, a gate, a waiter or a pending mark (R212). -/
theorem changes_nothing_of_surface_command {i : Instr} (h : i.surface = .command) :
    changesSlot i = false ∧ changesBuffer i = false ∧ changesGate i = false ∧ changesWaiter i = false ∧ acknowledges i = none := by
  cases i with
  | getFileLength | getEncParams | getResolution | getMode | getFps | getFormat | setReadOffset | setWriteOffset
  | setReadTransferDone | clearReadTransferDone | setWriteTransferDone | clearWriteTransferDone => exact ⟨rfl, rfl, rfl, rfl, rfl⟩
  | _ => cases h

/-- A command is no event dispatch (R95). -/
theorem ne_eventOf_of_surface_command {i : Instr} (h : i.surface = .command) (l : Line) : i ≠ eventOf l := by
  rintro rfl
  cases l <;> cases h

/-- Settles O23: the frames of registers, control state and records, at the operations whose rules change none of these. -/
theorem commandFrame : Obligations.CommandFrame := by
  intro i s t hi h
  obtain ⟨noSlot, noBuffer, noGate, noWaiter, noLine⟩ := changes_nothing_of_surface_command hi
  obtain ⟨_, hreg⟩ := registerFrame i s t h
  obtain ⟨hslot, hbuffer, _, _, hgate, hwaiter, hpending⟩ := controlStateFrame i s t h
  obtain ⟨hbuf, hbytes⟩ := hbuffer noBuffer
  have hlines : t.pending = s.pending := PerLine.ext_get fun l => hpending l (by simp [noLine])
  have hhandler : t.handler = s.handler := PerLine.ext_get fun l => (exec_records h).2 l (ne_eventOf_of_surface_command hi l)
  exact ⟨hslot noSlot, hbuf, hgate noGate, hwaiter noWaiter, hlines, hhandler, hreg, hbytes⟩

/-! ## The half-words of READY (R216) -/

/-- Setting or clearing the ready bit leaves the other bits of READY as they are (R93). -/
theorem applyReadyUpdate_upperBits {u : ReadyUpdate} (hu : ∀ h, u ≠ .putOffHi h) (v : Word) :
    (applyReadyUpdate u v).extractLsb' 1 31 = v.extractLsb' 1 31 := by
  apply BitVec.eq_of_getLsbD_eq
  intro i hi
  rw [BitVec.getLsbD_extractLsb', BitVec.getLsbD_extractLsb']
  cases u with
  | setReady => simp [setReadyBit_getLsbD v (1 + i) (by omega)]
  | clearReady => simp [clearReadyBit_getLsbD v (1 + i) (by omega)]
  | putOffHi h => exact absurd rfl (hu h)

/-- The step, and each it puts before the rest of its operation, writes READY_d only by setting or clearing the ready bit. -/
def keepsUpperBits (d : Dir) : Micro → Bool
  | .write (.s r) _ | .resetReg r _ => decide (r ≠ readyReg d)
  | .rmw d' (.putOffHi _) => decide (d' ≠ d)
  | _ => true

theorem keepsUpperBits_closed (d : Dir) : StepsClosed fun m => keepsUpperBits d m = true := by
  simp [StepsClosed, keepsUpperBits, (readyReg_ne_addrReg _ _).symm, (readyReg_ne_sizeReg _ _).symm]

/-- With no block of `d` open, such a step keeps READY_d[31:1]. -/
theorem went_upperBits {m : Micro} {t t' : Task} {s s' : State} {d : Dir} (h : Went t s m t' s') (hm : keepsUpperBits d m = true)
    (ho : s.opened.get d = none) : (s'.reg (readyReg d)).extractLsb' 1 31 = (s.reg (readyReg d)).extractLsb' 1 31 := by
  have same : readyReg d ∉ writtenBy m → (s'.reg (readyReg d)).extractLsb' 1 31 = (s.reg (readyReg d)).extractLsb' 1 31 :=
    fun hw => by rw [went_reg h hw]
  cases h with
  | write r v | resetReg r k =>
    have hne : r ≠ readyReg d := by simpa [keepsUpperBits] using hm
    exact same (by simpa [writtenBy] using hne.symm)
  | rmw d' u =>
    by_cases e : d' = d
    · subst e
      rw [closeOpen_none ho, updateReady_reg_same]
      refine applyReadyUpdate_upperBits ?_ _
      rintro x rfl
      simp [keepsUpperBits] at hm
    · exact same (by simpa [writtenBy] using Ne.symm e)
  | putReady d' id =>
    by_cases e : d' = d
    · subst e
      rcases closeBlock_cases d' id s with ⟨⟨o, hsome, _⟩, _⟩ | ⟨_, e⟩
      · cases ho.symm.trans hsome
      · rw [e]
    · exact same (by simpa [writtenBy] using Ne.symm e)
  | _ => exact same (by simp [writtenBy])

/-- An operation of such steps keeps READY_d[31:1], where no block of `d` is open (R216, R262). -/
theorem exec_upperBits {i : Instr} {s t : State} {d : Dir} (h : exec i s = .next t) (ho : s.opened.get d = none)
    (hi : ∀ m ∈ stepsOf i s, keepsUpperBits d m = true) :
    (t.reg (readyReg d)).extractLsb' 1 31 = (s.reg (readyReg d)).extractLsb' 1 31 := by
  refine (exec_frame h (keepsUpperBits_closed d) (fun u => u.opened.get d = none ∧
    (u.reg (readyReg d)).extractLsb' 1 31 = (s.reg (readyReg d)).extractLsb' 1 31) hi (fun m _ u _ u' hm hu hgo => ?_)
    (fun _ _ => ⟨ho, rfl⟩) ⟨ho, rfl⟩ (fun _ _ _ hu => hu) (fun _ _ _ hu => hu) (fun _ hu => hu)).2
  obtain ⟨hopened, hbits⟩ := hu
  have hwent := (micro_went hgo).2
  refine ⟨?_, (went_upperBits hwent hm hopened).trans hbits⟩
  rcases went_opened hwent d with e | ⟨e, _⟩
  · exact e.trans hopened
  · exact e

/-- MARK_READY.d and the completion event of `d` set or clear the ready bit, and write READY_d in no other way (R171, R250, R251). -/
theorem stepsOf_keepsUpperBits {d : Dir} {i : Instr} (s : State) (hi : i = .markReady d ∨ i = completionOf d) :
    ∀ m ∈ stepsOf i s, keepsUpperBits d m = true := by
  rcases hi with rfl | rfl
  · simp [stepsOf, keepsUpperBits]
  · cases d <;> simp [completionOf, stepsOf, completionSteps, keepsUpperBits]

/-- MARK_READY.d, the completion event of `d` and SET_d_OFFSET belong to `d` (R6). -/
theorem directionOf_readyUpdater {d : Dir} {i : Instr} (hi : i = .markReady d ∨ i = completionOf d ∨ ∃ o, i = setOffsetOf d o) :
    directionOf i = some d := by
  rcases hi with rfl | rfl | ⟨o, rfl⟩ <;> cases d <;> rfl

/-- SET_d_OFFSET, not preempted: READY_d after it (R206, R207). -/
theorem readyReg_after_setOffset {d : Dir} {o : DWord} {s t : State} (hq : s.quantum = none) (ho : s.opened.get d = none)
    (h : exec (setOffsetOf d o) s = .next t) :
    t.reg (readyReg d) = o.extractLsb' 16 16 ++ (s.reg (readyReg d)).extractLsb' 0 16 := by
  have hi : s.idle s.caller = true := (beginOperation_next (exec_setOffsetOf d o s ▸ h)).1
  rw [exec_setOffsetOf_idle hi hq ho] at h
  cases h
  rw [returns_reg, offsetSet_eq_setReg, State.setReg_reg_same]

/-- What an update makes of the high half-word of READY (R93). -/
theorem applyReadyUpdate_high (u : ReadyUpdate) (v : Word) :
    (applyReadyUpdate u v).extractLsb' 16 16 = match u with
      | .putOffHi h => h
      | _ => v.extractLsb' 16 16 := by
  apply BitVec.eq_of_getLsbD_eq
  intro i hi
  cases u with
  | setReady => simp [setReadyBit_getLsbD v (16 + i) (by omega)]
  | clearReady => simp [clearReadyBit_getLsbD v (16 + i) (by omega)]
  | putOffHi h => rw [applyReadyUpdate_putOffHi, putOffHi_extractLsb'_high]

/-- Any sequence of updates keeps bits [15:1] of READY (R216). -/
theorem foldl_applyReadyUpdate_reserved (us : List ReadyUpdate) (v : Word) :
    (us.foldl (fun v u => applyReadyUpdate u v) v).extractLsb' 1 15 = v.extractLsb' 1 15 := by
  induction us generalizing v with
  | nil => rfl
  | cons u us ih => rw [List.foldl_cons, ih, applyReadyUpdate_reserved]

/-- Settles O24: SET_d_OFFSET by the word it writes, the others by their steps and their direction, and a sequence of updates by what
each makes of the two fields. -/
theorem halfWordsArePreserved : Obligations.HalfWordsArePreserved := by
  refine ⟨fun d o s t hq ho h => ?_, fun d i s t hi ho h => exec_upperBits h ho (stepsOf_keepsUpperBits s hi),
    fun d d' i s t hi hne h => ?_, fun us v => ⟨foldl_applyReadyUpdate_reserved us v, ?_, ?_⟩⟩
  · rw [readyReg_after_setOffset hq ho h]
    exact ⟨BitVec.extractLsb'_append_eq_right, BitVec.extractLsb'_append_eq_left⟩
  · obtain ⟨_, _, _, _, _, _, hready, haddr, hoffset, hsize, _⟩ :=
      directionsAreIndependent i d d' s t (directionOf_readyUpdater hi) hne h
    exact ⟨hready, haddr, hoffset, hsize⟩
  · exact (List.foldl_hom (fun w : Word => w.extractLsb' 16 16)
      fun w u => .trans (by cases u <;> rfl) (applyReadyUpdate_high u w).symm).symm
  · exact (List.foldl_hom (fun w : Word => w.getLsbD 0)
      fun w u => .trans (by cases u <;> rfl) (applyReadyUpdate_bit0 u w).symm).symm

end Sys2Proof.Machine
end

section
/-! Proofs for 44_bulk_transfer.md: the errors READ and WRITE have from BEGIN_TRANSFER and from the copy from the caller (R230, R231,
R233, R244), and a whole READ and a whole WRITE, from the call to the return after the device's completion event (R230, R231, R235). -/

namespace Sys2Proof.Machine

/-! ## The call (R230, R231, R248) -/

/-- What READ and WRITE do once the buffer is in place: MARK_READY.d, WAIT.d and COMPLETE_AND_RELEASE.d (R230, R231). -/
def bulkRest (d : Dir) (k : Nat) : List Micro :=
  [.checkPublished d k, .rmw d .setReady, .awaitCompletion d, .waitEnter d k, .waitBlock d, .complete d k]

/-- READ of a length in 1..LEN_MAX begins its steps (R230). -/
theorem exec_read_eq_beginOperation {n : DWord} (hpos : 0 < n.toInt) (hmax : n.toInt ≤ 4294967295) (s : State) :
    exec (.read n) s = beginOperation
      (.claim .read (n.setWidth 32) :: .giveHandle .read s.caller :: bulkRest .read s.caller) (.const (.bytes [])) s := by
  obtain ⟨hlength, hlong, _⟩ := bulkLength_bounds hpos hmax
  simp only [exec, execRead, withBulkLength, if_neg hlength, hlong, Bool.false_eq_true, if_false]
  rfl

/-- WRITE of a length in 1..LEN_MAX begins its steps (R231). -/
theorem exec_write_eq_beginOperation {n : DWord} (hpos : 0 < n.toInt) (hmax : n.toInt ≤ 4294967295) (s : State) :
    exec (.write n) s = beginOperation (.claim .write (n.setWidth 32) :: .giveHandle .write s.caller ::
      .copyIn (n.setWidth 32) :: bulkRest .write s.caller) (.const .ok) s := by
  obtain ⟨hlength, hlong, _⟩ := bulkLength_bounds hpos hmax
  simp only [exec, execWrite, withBulkLength, if_neg hlength, hlong, Bool.false_eq_true, if_false]
  rfl

/-- A bulk length in 1..LEN_MAX is the number of the word BEGIN_TRANSFER gets, which is not zero (R230, R231, D10). -/
theorem bulkLength_word {n : DWord} (hpos : 0 < n.toInt) (hmax : n.toInt ≤ 4294967295) :
    (n.setWidth 32).toNat = n.toNat ∧ n.setWidth 32 ≠ (0 : Word) := by
  obtain ⟨_, _, hle, hne⟩ := bulkLength_bounds hpos hmax
  have hword := toNat_setWidth_of_le_lenMax hle
  refine ⟨hword, fun h => ?_⟩
  rw [h] at hword
  exact hne.ne hword

/-- An operation that begins with BEGIN_TRANSFER.d returns its errors, with nothing changed (R233, R242, R243). -/
theorem beginOperation_claim_raise {d : Dir} {len : Word} {rest : List Micro} {fin : Finish} {s : State}
    (hi : s.idle s.caller = true) :
    (s.slot.get d ≠ .unallocated →
      beginOperation (.claim d len :: rest) fin s = .next (s.returns s.caller (.error .transferAlreadyInFlight) none)) ∧
    (s.slot.get d = .unallocated → s.allocator = none →
      beginOperation (.claim d len :: rest) fin s = .next (s.returns s.caller (.error .allocationFailed) none)) :=
  ⟨fun hslot => beginOperation_raise hi ((micro_free rfl).trans (claim_inFlight hslot)),
    fun hslot ha => beginOperation_raise hi ((micro_free rfl).trans (claim_failed hslot (.inr ha)))⟩

/-! ## BEGIN_TRANSFER at the head of an operation (R170, R230, R231) -/

/-- A task that acts on the transfer of direction `d` whose buffer has that serial number (R175; log 21). -/
def transferTask (d : Dir) (serial : Nat) (fin : Finish) (todo : List Micro) : Task :=
  { newTask todo fin with holds := some (d, serial) }

@[simp] theorem transferTask_todo (d : Dir) (serial : Nat) (fin : Finish) (todo : List Micro) :
    (transferTask d serial fin todo).todo = todo := rfl

/-- Such a task is live while that buffer is in the slot (R175). -/
theorem live_transferTask {d : Dir} {b : Buffer} {fin : Finish} {todo : List Micro} {s : State} (hb : s.buf.get d = some b) :
    live (transferTask d b.serial fin todo) s = true :=
  (live_some rfl).2 ⟨b, hb, rfl⟩

/-- BEGIN_TRANSFER.d by caller `k` at the head of an operation, where the allocator answers (R170). -/
theorem runMicros_beginTransfer {d : Dir} {len dev : Word} {host k n : Nat} {rest : List Micro} {fin : Finish} {s : State}
    (hslot : s.slot.get d = .unallocated) (hpos : len ≠ 0) (ha : s.allocator = some (dev, host)) (hrest : rest ≠ []) :
    runMicros (n + 4) (newTask (.claim d len :: .giveHandle d k :: rest) fin) s =
      runMicros n (transferTask d (freshBuffer len dev host s).serial fin rest) (begun d len dev host k s) := by
  have hlive : ∀ (u : State) (todo : List Micro), u.buf.get d = some (freshBuffer len dev host s) →
      live (transferTask d s.draws fin todo) u = true := fun _ _ => live_transferTask
  refine (runMicros_went (t := newTask (.giveHandle d k :: rest) fin) (.inl rfl)
    (.claim d len dev host hslot hpos ha) (by simp)).trans ?_
  refine (runMicros_went (t := transferTask d s.draws fin (_ :: .giveHandle d k :: rest)) (.inr (hlive _ _ (by simp)))
    (.write (addrReg d) dev) (by simp)).trans ?_
  refine (runMicros_went (t := transferTask d s.draws fin (.giveHandle d k :: rest)) (.inr (hlive _ _ (by simp)))
    (.write (sizeReg d) len) (by simp)).trans ?_
  exact runMicros_went (t := transferTask d s.draws fin rest) (.inr (hlive _ _ (by simp))) (.giveHandle d k (by simp)) hrest

/-! ## A copy from the caller that fails (R231, R244) -/

/-- WRITE of an idle caller, not preempted, whose copy from the caller fails: BEGIN_TRANSFER.W and the release (R231, R244). -/
theorem exec_write_copyFault {n : DWord} {dev : Word} {host : Nat} {s : State} (hi : s.idle s.caller = true)
    (hq : s.quantum = none) (hpos : 0 < n.toInt) (hmax : n.toInt ≤ 4294967295) (hslot : s.slot.get .write = .unallocated)
    (ha : s.allocator = some (dev, host)) (hsource : s.source = none) :
    exec (.write n) s = .next ((freeBuffer .write (begun .write (n.setWidth 32) dev host s.caller s)).returns s.caller
      (.error .copyFault) none) := by
  have hrelease : runMicros 12 (transferTask .write (freshBuffer (n.setWidth 32) dev host s).serial (.const .ok)
      (.copyIn (n.setWidth 32) :: bulkRest .write s.caller)) (begun .write (n.setWidth 32) dev host s.caller s) =
      .done (.error .copyFault) none (freeBuffer .write (begun .write (n.setWidth 32) dev host s.caller s)) := by
    refine (runMicros_went (t := transferTask .write _ _ (bulkRest .write s.caller)) (s := begun _ _ _ _ _ _) (.inl rfl)
      (.copyFails (n.setWidth 32) hsource) (by simp)).trans ?_
    exact runMicros_went_last (t := transferTask .write _ _ []) (.inr (live_transferTask (by simp [begun])))
      (.release .write (by simp [begun])) rfl
  rw [exec_write_eq_beginOperation hpos hmax, beginOperation_idle hi, runCallerTask, turnLength_none hq,
    runMicros_beginTransfer hslot (bulkLength_word hpos hmax).2 ha (by simp), hrelease]
  rfl

/-- Settles O46: the errors are those of the first step of both operations, and a failing copy leaves BEGIN_TRANSFER.W's writes. -/
theorem bulkErrors : Obligations.BulkErrors := by
  refine ⟨fun n d i s hi hpos hmax hop => ?_, fun n dev host s hi hq hpos hmax hslot ha hsource => ?_⟩
  · rcases hop with ⟨rfl, rfl⟩ | ⟨rfl, rfl⟩
    · rw [exec_read_eq_beginOperation hpos hmax]
      exact beginOperation_claim_raise hi
    · rw [exec_write_eq_beginOperation hpos hmax]
      exact beginOperation_claim_raise hi
  · have hreg := begun_reg .write (n.setWidth 32) dev host s.caller s
    refine ⟨_, exec_write_copyFault hi hq hpos hmax hslot ha hsource, by simp, by simp [begun, ← hslot], by simp [begun],
      hreg _, hreg _, (congrArg BitVec.toNat (hreg _)).trans (bulkLength_word hpos hmax).1, rfl, rfl, by simp [begun]⟩

/-! ## From the call to the WAIT (R171, R190, R230, R231) -/

/-- The state in which a READ or WRITE of caller `k` comes to its MARK_READY.d: the transfer of buffer `b` has begun, by `k`'s session,
and neither an open block nor a waiter of `d` stands in the way (R171, R190). -/
structure Unmarked (d : Dir) (k : Nat) (b : Buffer) (u : State) : Prop where
  slot : u.slot.get d = .published
  buf : u.buf.get d = some b
  handle : u.handle.get d = some { owner := sessionOf k, awaited := false }
  gate : u.gate.get d = .pending
  opened : u.opened.get d = none
  waiter : u.waiter.get d = none

/-- BEGIN_TRANSFER.d leaves such a state (R170). -/
theorem unmarked_begun {d : Dir} {len dev : Word} {host k : Nat} {s : State} (ho : s.opened.get d = none)
    (hw : s.waiter.get d = none) : Unmarked d k (freshBuffer len dev host s) (begun d len dev host k s) :=
  ⟨by simp [begun], by simp [begun], by simp [begun], by simp [begun], ho, hw⟩

/-- The state after MARK_READY.d and the first step of WAIT.d, by caller `k` (R171, R190). -/
def waiting (d : Dir) (k : Nat) (u : State) : State :=
  ((updateReady d .setReady u).setSlot d .awaitingCompletion).setWaiter d (some k)

/-- MARK_READY.d and WAIT.d inside a READ or WRITE: the caller is held (R171, R190). -/
theorem runMicros_bulkRest {d : Dir} {k n : Nat} {b : Buffer} {fin : Finish} {u : State} (hu : Unmarked d k b u) :
    runMicros (n + 5) (transferTask d b.serial fin (bulkRest d k)) u =
      .paused (transferTask d b.serial fin [.waitBlock d, .complete d k]) (waiting d k u) := by
  have hlive : ∀ (v : State) (todo : List Micro), v.buf.get d = some b → live (transferTask d b.serial fin todo) v = true :=
    fun _ _ => live_transferTask
  have hcheck : Went (transferTask d b.serial fin (bulkRest d k).tail) u (.checkPublished d k)
      (transferTask d b.serial fin (bulkRest d k).tail) u := by
    have hwent := Went.checkPublished (t := transferTask d b.serial fin (bulkRest d k).tail) d k hu.slot
      ((ownsHandle_iff d k u).2 ⟨_, hu.handle, rfl⟩)
    rwa [transferOf, hu.buf] at hwent
  refine (runMicros_went (.inr (hlive _ _ hu.buf)) hcheck (by simp [bulkRest])).trans ?_
  refine (runMicros_went (t := transferTask d b.serial fin (bulkRest d k).tail.tail) (.inr (hlive _ _ hu.buf))
    (.rmw d .setReady) (by simp [bulkRest])).trans ?_
  rw [closeOpen_none hu.opened]
  refine (runMicros_went (t := transferTask d b.serial fin [.waitEnter d k, .waitBlock d, .complete d k])
    (.inr (hlive _ _ (by simpa using hu.buf))) (.awaitCompletion d (by simpa using hu.slot)) (by simp)).trans ?_
  refine (runMicros_went (t := transferTask d b.serial fin [.waitBlock d, .complete d k]) (.inl rfl)
    (.waitEnter d k (by simpa using hu.waiter)) (by simp)).trans ?_
  exact runMicros_hold rfl (micro_waitBlock_pending (by simpa [waiting] using hu.gate))

/-- The state after WRITE's copy of the caller's bytes into the begun buffer `b` (R231). -/
def copiedIn (b : Buffer) (data : List Byte) (u : State) : State :=
  (u.drawn.setBuf .write (some (b.store 0 data))).drawn

theorem unmarked_copiedIn {k : Nat} {b : Buffer} {data : List Byte} {u : State} (hu : Unmarked .write k b u) :
    Unmarked .write k (b.store 0 data) (copiedIn b data u) :=
  ⟨hu.slot, by simp [copiedIn], hu.handle, hu.gate, hu.opened, hu.waiter⟩

/-- As many bytes as the caller has are those bytes (R63). -/
theorem sourceBytes_of_length {data : List Byte} {n : Nat} (h : data.length = n) (draw : Nat) :
    sourceBytes data n draw = data := by
  subst h
  apply List.ext_getElem
  · simp [sourceBytes]
  · intro i _ hi
    simp [sourceBytes, hi]

/-- WRITE's copy from the caller, with the ready bit clear: the caller's bytes are in the buffer (R231, R63). -/
theorem runMicros_copyIn {n : Nat} {len : Word} {data : List Byte} {b : Buffer} {fin : Finish} {rest : List Micro} {u : State}
    (hb : u.buf.get .write = some b) (hsource : u.source = some data) (hlen : data.length = len.toNat) (hbuf : b.len = len.toNat)
    (hready : u.ready .write = false) (hrest : rest ≠ []) :
    runMicros (n + 2) (transferTask .write b.serial fin (.copyIn len :: rest)) u =
      runMicros n (transferTask .write (b.store 0 data).serial fin rest) (copiedIn b data u) := by
  refine (runMicros_went (t := transferTask .write b.serial fin rest) (.inl rfl) (.copyIn len data hsource) (by simp)).trans ?_
  rw [sourceBytes_of_length hlen]
  refine (runMicros_went (t := transferTask .write b.serial fin rest) (s := u.drawn) (.inr (live_transferTask hb))
    (.storeBytes 0 data b hb (by omega)) hrest).trans ?_
  rw [State.drawn_ready, hready]
  rfl

/-! ## While the caller is held (R46, R75, R77, R190) -/

/-- Caller `k` is held in the WAIT.d of its READ or WRITE, whose transfer of buffer `b` awaits its completion. No preemption is planned, no
block of `d` is open, and no reaction to `d`'s completion event is in progress (R190, R230, R231). -/
structure BulkHeld (d : Dir) (k : Nat) (fin : Finish) (b : Buffer) (s : State) : Prop where
  task : (s.callerOf k).task = some (transferTask d b.serial fin [.waitBlock d, .complete d k])
  result : (s.callerOf k).result = none
  slot : s.slot.get d = .awaitingCompletion
  buf : s.buf.get d = some b
  handle : s.handle.get d = some { owner := sessionOf k, awaited := false }
  waiter : s.waiter.get d = some k
  opened : s.opened.get d = none
  quantum : s.quantum = none
  reaction : s.handler.get (completionLine d) = none

/-- The state in which caller `k` is held in the WAIT.d of its READ or WRITE, with buffer `b` in place in `u` (R190, R230, R231). -/
def bulkPaused (d : Dir) (k : Nat) (fin : Finish) (b : Buffer) (u : State) : State :=
  (waiting d k u).pauses k (transferTask d b.serial fin [.waitBlock d, .complete d k])

theorem bulkHeld_bulkPaused {d : Dir} {k : Nat} {fin : Finish} {b : Buffer} {u : State} (hu : Unmarked d k b u)
    (hh : u.handler.get (completionLine d) = none) : BulkHeld d k fin b (bulkPaused d k fin b u) where
  task := by simp [bulkPaused]
  result := by simp [bulkPaused]
  slot := by simp [bulkPaused, waiting]
  buf := hu.buf
  handle := hu.handle
  waiter := by simp [bulkPaused, waiting]
  opened := hu.opened
  quantum := rfl
  reaction := hh

theorem BulkHeld.blockedIn {d : Dir} {k : Nat} {fin : Finish} {b : Buffer} {s : State} (h : BulkHeld d k fin b s) :
    blockedIn k d s = true :=
  (blockedIn_iff k d s).2 ⟨_, _, h.task, rfl⟩

/-- The held caller's buffer is offered, if ADDR_d and SIZE_d are the buffer's: MARK_READY.d has set the ready bit (R46 d, R171). -/
theorem offered_bulkPaused {d : Dir} {k : Nat} {fin : Finish} {b : Buffer} {u : State} (haddr : u.reg (addrReg d) = b.devAddr)
    (hsize : (u.reg (sizeReg d)).toNat = b.len) : (bulkPaused d k fin b u).offered d b := by
  have hreg : ∀ r, (bulkPaused d k fin b u).reg r = (updateReady d .setReady u).reg r := fun _ => rfl
  refine ⟨?_, ?_, ?_⟩
  · rw [State.ready, hreg, updateReady_reg_same, applyReadyUpdate_bit0]
  · rw [hreg, updateReady_reg_other _ _ _ _ (readyReg_ne_addrReg d d).symm, haddr]
  · rw [hreg, updateReady_reg_other _ _ _ _ (readyReg_ne_sizeReg d d).symm, hsize]

/-- BEGIN_TRANSFER.d has written ADDR_d and SIZE_d of the buffer it installed (R170, R177). -/
theorem begun_addr_size (d : Dir) (len dev : Word) (host k : Nat) (s : State) :
    (begun d len dev host k s).reg (addrReg d) = dev ∧ (begun d len dev host k s).reg (sizeReg d) = len := by
  simp [begun_reg]

/-- READ of an idle caller, not preempted, publishes a buffer of `n` bytes, and its caller is held in WAIT.R (R230). -/
theorem exec_read_held {n : DWord} {dev : Word} {host : Nat} {s : State} (hi : s.idle s.caller = true) (hq : s.quantum = none)
    (hpos : 0 < n.toInt) (hmax : n.toInt ≤ 4294967295) (hslot : s.slot.get .read = .unallocated)
    (ha : s.allocator = some (dev, host)) (hw : s.waiter.get .read = none) (hh : s.handler.get .rc = none)
    (ho : s.opened.get .read = none) :
    ∃ t b, exec (.read n) s = .next t ∧ BulkHeld .read s.caller (.const (.bytes [])) b t ∧ t.offered .read b ∧
      b.len = n.toNat ∧ b.devAddr = dev ∧ t.slot = s.slot.set .read .awaitingCompletion := by
  obtain ⟨hword, hne⟩ := bulkLength_word hpos hmax
  obtain ⟨haddr, hsize⟩ := begun_addr_size .read (n.setWidth 32) dev host s.caller s
  have hbegun := unmarked_begun (len := n.setWidth 32) (dev := dev) (host := host) (k := s.caller) ho hw
  refine ⟨bulkPaused .read s.caller _ (freshBuffer (n.setWidth 32) dev host s) _, _, ?_, bulkHeld_bulkPaused hbegun hh,
    offered_bulkPaused haddr (congrArg _ hsize), hword, rfl, by simp [bulkPaused, waiting, begun]⟩
  rw [exec_read_eq_beginOperation hpos hmax, beginOperation_idle hi, runCallerTask, turnLength_none hq,
    runMicros_beginTransfer hslot hne ha (by simp [bulkRest]), runMicros_bulkRest hbegun]
  rfl

/-- WRITE of an idle caller, not preempted, with the ready bit clear, publishes a buffer of the caller's `n` bytes, and its caller is held
in WAIT.W (R231). -/
theorem exec_write_held {n : DWord} {dev : Word} {host : Nat} {data : List Byte} {s : State} (hi : s.idle s.caller = true)
    (hq : s.quantum = none) (hpos : 0 < n.toInt) (hmax : n.toInt ≤ 4294967295) (hlen : data.length = n.toNat)
    (hslot : s.slot.get .write = .unallocated) (ha : s.allocator = some (dev, host)) (hsource : s.source = some data)
    (hw : s.waiter.get .write = none) (hh : s.handler.get .wc = none) (ho : s.opened.get .write = none)
    (hready : s.ready .write = false) :
    ∃ t b, exec (.write n) s = .next t ∧ BulkHeld .write s.caller (.const .ok) b t ∧ t.offered .write b ∧
      b.len = n.toNat ∧ b.devAddr = dev ∧ t.slot = s.slot.set .write .awaitingCompletion ∧ b.bytes 0 n.toNat = data := by
  obtain ⟨hword, hne⟩ := bulkLength_word hpos hmax
  obtain ⟨haddr, hsize⟩ := begun_addr_size .write (n.setWidth 32) dev host s.caller s
  have hbegun := unmarked_begun (len := n.setWidth 32) (dev := dev) (host := host) (k := s.caller) ho hw
  have hcopied := unmarked_copiedIn (data := data) hbegun
  have hclear : (begun .write (n.setWidth 32) dev host s.caller s).ready .write = false :=
    (congrArg (fun v : Word => v.getLsbD 0) (begun_reg .write _ _ _ _ s (readyReg .write))).trans hready
  refine ⟨bulkPaused .write s.caller _ ((freshBuffer (n.setWidth 32) dev host s).store 0 data) _, _, ?_,
    bulkHeld_bulkPaused hcopied hh, offered_bulkPaused haddr (congrArg _ hsize), hword, rfl,
    by simp [bulkPaused, waiting, copiedIn, begun], hlen ▸ Buffer.bytes_store_self _ 0 data⟩
  rw [exec_write_eq_beginOperation hpos hmax, beginOperation_idle hi, runCallerTask, turnLength_none hq,
    runMicros_beginTransfer hslot hne ha (by simp),
    runMicros_copyIn hbegun.buf hsource (hlen.trans hword.symm) rfl hclear (by simp [bulkRest]), runMicros_bulkRest hcopied]
  rfl

/-- The device may access every byte of an offered buffer, and finds byte `off` at `ADDR_d + off` (R61, R77). -/
theorem deviceMayAccess_of_offered {d : Dir} {b : Buffer} {off n : Nat} {s : State} (h : s.offered d b) (hn : off + n ≤ b.len) :
    deviceMayAccess s d b off n = true ∧ deviceIndex s d b off = off := by
  obtain ⟨hready, haddr, hsize⟩ := h
  have hindex : deviceIndex s d b off = off := by rw [deviceIndex, haddr]; omega
  refine ⟨(deviceMayAccess_iff s d b off n).2 ⟨hready, ?_, ?_, ?_⟩, hindex⟩
  · omega
  · rw [haddr]; omega
  · omega

/-- The device fills an offered read buffer (R7, R77). -/
theorem deviceMove_fill_offered {b : Buffer} {off : Nat} {bytes : List Byte} {s : State} (hb : s.buf.get .read = some b)
    (h : s.offered .read b) (hn : off + bytes.length ≤ b.len) :
    deviceMove (.fill off bytes) s = .next (s.setBuf .read (some (b.store off bytes))) := by
  obtain ⟨hmay, hindex⟩ := deviceMayAccess_of_offered h hn
  simp only [deviceMove, deviceFill, hb, hmay, hindex, if_true]

/-- The device reads an offered write buffer (R7, R75, R77). -/
theorem deviceMove_fetch_offered {b : Buffer} {off n : Nat} {s : State} (hb : s.buf.get .write = some b)
    (h : s.offered .write b) (hn : off + n ≤ b.len) :
    deviceMove (.fetch off n) s = .next { s with seenBytes := b.bytes off n } := by
  obtain ⟨hmay, hindex⟩ := deviceMayAccess_of_offered h hn
  simp only [deviceMove, deviceFetch, hb, hmay, hindex, if_true]

/-! ## The completion event (R250, R251) -/

/-- The state after the reaction of `d`'s completion event: the ready bit cleared, the event acknowledged, the gate Signaled. A block of
`d` that was open has made its write first (R250, R251, R262; log 11). -/
def completed (d : Dir) (s : State) : State :=
  ((updateReady d .clearReady (closeOpen d s)).setPending (completionLine d) false).setGate d .signaled

/-- Nothing is recorded of a reaction that ends in its first turn (R254). -/
theorem State.setHandler_none_turnOver {l : Line} {s : State} (hh : s.handler.get l = none) (hq : s.quantum = none) :
    (s.setHandler l none).turnOver = s := by
  have hset : s.handler.set l none = s.handler := hh ▸ PerLine.set_get s.handler l
  rw [State.setHandler, hset, State.turnOver, ← hq]

/-- The completion event of `d`, not preempted, on a pending line with no reaction in progress (R250, R251). -/
theorem exec_completionOf_pending {d : Dir} {s : State} (hp : s.pending.get (completionLine d) = true)
    (hh : s.handler.get (completionLine d) = none) (hq : s.quantum = none) :
    exec (completionOf d) s = .next (completed d s) := by
  have hrun : runMicros 16 (newTask (completionSteps d) (.const .ok)) s = .done .ok none (completed d s) := by
    refine (runMicros_went (t := newTask [.rmw d .clearReady, .ack (completionLine d), .signal d] _) (.inl rfl) .enter
      (by simp [newTask])).trans ?_
    refine (runMicros_went (t := newTask [.ack (completionLine d), .signal d] _) (.inr (live_none rfl)) (.rmw d .clearReady)
      (by simp [newTask])).trans ?_
    refine (runMicros_went (t := newTask [.signal d] _) (.inl rfl) (.ack (completionLine d)) (by simp [newTask])).trans ?_
    exact runMicros_went_last (t := newTask [] _) (.inl rfl) (.signal d) rfl
  rw [exec_completionOf, dispatchEvent_ready hh hp, runHandlerTask, turnLength_none hq, hrun]
  exact congrArg _ (State.setHandler_none_turnOver (by simpa [completed] using hh) (by simpa [completed] using hq))

@[simp] theorem completed_ready (d : Dir) (s : State) : (completed d s).ready d = false := by
  rw [completed, State.setGate_ready, State.setPending_ready, State.ready, updateReady_reg_same, applyReadyUpdate_bit0]

/-- The device raises the completion event of the transfer that is waited for: its reaction leaves the caller held, with the gate
Signaled (R43, R250, R251). -/
theorem BulkHeld.completed {d : Dir} {k : Nat} {fin : Finish} {b : Buffer} {s : State} (h : BulkHeld d k fin b s) :
    exec (completionOf d) (s.setPending (completionLine d) true) = .next (completed d (s.setPending (completionLine d) true)) ∧
      BulkHeld d k fin b (completed d (s.setPending (completionLine d) true)) := by
  obtain ⟨htask, hresult, hslot, hbuf, hhandle, hwaiter, hopened, hquantum, hreaction⟩ := h
  refine ⟨exec_completionOf_pending (by simp) hreaction hquantum, ?_⟩
  constructor <;> simp [Machine.completed, *]

/-! ## The return (R172, R190, R230, R231) -/

/-- The held caller, resumed after a signal, consumes it and goes on to its COMPLETE_AND_RELEASE.d, whose precondition holds
(R172, R190). -/
theorem BulkHeld.resume {d : Dir} {k : Nat} {fin : Finish} {b : Buffer} {s : State} (h : BulkHeld d k fin b s)
    (hg : s.gate.get d = .signaled) :
    resume (.caller k) s =
        endCallerTurn k (runMicros 15 (transferTask d b.serial fin [.complete d k]) (consumeSignal d (some k) s)) ∧
      mayComplete d k (consumeSignal d (some k) s) = true := by
  constructor
  · have hcaller : waiterFor d (transferTask d b.serial fin [.complete d k]) s = some k := by
      rw [waiterFor_live (live_transferTask h.buf), h.waiter]
    rw [resume_caller h.task, runCallerTask, turnLength_none h.quantum, ← hcaller]
    exact congrArg _ (runMicros_went (t := transferTask d b.serial fin [.complete d k]) (.inl rfl) (.waitBlock d hg) (by simp))
  · rw [mayComplete_iff]
    simp [h.slot, h.handle, noteWaited]

/-- COMPLETE_AND_RELEASE.R at the end of READ, with the ready bit clear and a destination that takes the bytes (R172, R230). -/
theorem runMicros_complete_read {k n : Nat} {b : Buffer} {fin : Finish} {s : State} (hmay : mayComplete .read k s = true)
    (hb : s.buf.get .read = some b) (hready : s.ready .read = false) (hok : s.destinationOk = true) :
    runMicros (n + 4) (transferTask .read b.serial fin [.complete .read k]) s =
      .done (.bytes (b.bytes 0 b.len)) (some (b.bytes 0 b.len)) (freeBuffer .read s.drawn) := by
  obtain ⟨hslot, _⟩ := (mayComplete_iff .read k s).1 hmay
  refine (runMicros_went (t := transferTask .read b.serial fin []) (.inr (live_transferTask hb)) (.completeRead k hmay)
    (by simp)).trans ?_
  refine (runMicros_went (t := { transferTask .read b.serial fin [.release .read] with holds := transferOf .read s })
    (.inr (live_of_transferOf rfl rfl)) (.loadBytes [] b hb (Nat.zero_le _)) (by simp)).trans ?_
  rw [hready]
  exact (runMicros_deliver_release (live_of_transferOf rfl rfl) (by simp [hslot]) rfl).trans (if_pos hok)

/-- COMPLETE_AND_RELEASE.W at the end of WRITE (R172, R231). -/
theorem runMicros_complete_write {k n : Nat} {b : Buffer} {fin : Finish} {s : State} (hmay : mayComplete .write k s = true)
    (hb : s.buf.get .write = some b) :
    runMicros (n + 2) (transferTask .write b.serial fin [.complete .write k]) s =
      .done (makeResult fin []) none (freeBuffer .write s) := by
  obtain ⟨hslot, _⟩ := (mayComplete_iff .write k s).1 hmay
  refine (runMicros_went (t := transferTask .write b.serial fin []) (.inr (live_transferTask hb)) (.completeWrite k hmay)
    (by simp)).trans ?_
  exact runMicros_went_last (t := { transferTask .write b.serial fin [] with holds := transferOf .write s })
    (.inr (live_of_transferOf rfl rfl)) (.release .write (by simp [hslot])) rfl

/-- A READ resumed after its completion event, with the ready bit clear, returns the bytes of the buffer (R172, R230). -/
theorem BulkHeld.resume_read {k : Nat} {b : Buffer} {s : State} (h : BulkHeld .read k (.const (.bytes [])) b s)
    (hg : s.gate.get .read = .signaled) (hready : s.ready .read = false) (hok : s.destinationOk = true) :
    Machine.resume (.caller k) s = .next ((freeBuffer .read (consumeSignal .read (some k) s).drawn).returns k
      (.bytes (b.bytes 0 b.len)) (some (b.bytes 0 b.len))) := by
  obtain ⟨hresume, hmay⟩ := h.resume hg
  rw [hresume, runMicros_complete_read hmay h.buf hready hok]
  rfl

/-- A WRITE resumed after its completion event returns ok (R172, R231). -/
theorem BulkHeld.resume_write {k : Nat} {b : Buffer} {s : State} (h : BulkHeld .write k (.const .ok) b s)
    (hg : s.gate.get .write = .signaled) :
    Machine.resume (.caller k) s = .next ((freeBuffer .write (consumeSignal .write (some k) s)).returns k .ok none) := by
  obtain ⟨hresume, hmay⟩ := h.resume hg
  rw [hresume, runMicros_complete_write hmay h.buf]
  rfl

/-- Settles O47: READ's caller is held with its buffer offered, the device's moves and the completion event leave it held, and the
resumed READ finds the ready bit clear and the device's bytes in the buffer. -/
theorem readEndToEnd : Obligations.ReadEndToEnd := by
  intro n dev host data s hi hq hpos hmax hlen hslot ha hw hh hok ho
  obtain ⟨t1, b, hexec, hheld, hoffered, hblen, hdev, hslot1⟩ := exec_read_held hi hq hpos hmax hslot ha hw hh ho
  obtain ⟨_, _, hok1, _⟩ := exec_sameInputs hexec
  have hfilled : BulkHeld .read s.caller (.const (.bytes [])) (b.store 0 data) (t1.setBuf .read (some (b.store 0 data))) :=
    { hheld with buf := by simp }
  obtain ⟨hevent, hwoken⟩ := hfilled.completed
  have hreturn := hwoken.resume_read (by simp [completed]) (completed_ready _ _) (by simpa [completed, hok1] using hok)
  rw [Buffer.store_len, hblen, ← hlen, Buffer.bytes_store_self] at hreturn
  have hupper := exec_upperBits hexec ho (by simp [stepsOf, keepsUpperBits])
  have hupper' := exec_upperBits hevent hheld.opened (stepsOf_keepsUpperBits _ (.inr rfl))
  refine ⟨t1, _, _, _, _, b, hexec, hheld.slot, hheld.buf, hoffered, hblen, hdev, hheld.blockedIn, hheld.waiter, hheld.result,
    deviceMove_fill_offered hheld.buf hoffered (by omega), rfl, hevent, hreturn, by simp, by simp, ?_, by simp, by simp, by simp,
    by simp, hupper'.trans hupper⟩
  simp [completed, hslot1, ← hslot]

/-- Settles O48: WRITE's caller is held with its bytes offered, which the device reads, the completion event leaves it held, and the
resumed WRITE frees the slot for the next BEGIN_TRANSFER.W. -/
theorem writeEndToEnd : Obligations.WriteEndToEnd := by
  intro n dev host data s hi hq hpos hmax hlen hslot ha hsource hw hh ho hready
  obtain ⟨t1, b, hexec, hheld, hoffered, hblen, hdev, hslot1, hbytes⟩ :=
    exec_write_held hi hq hpos hmax hlen hslot ha hsource hw hh ho hready
  obtain ⟨ha1, _, _, _, _, hcaller, _⟩ := exec_sameInputs hexec
  have hfetched : BulkHeld .write s.caller (.const .ok) b { t1 with seenBytes := b.bytes 0 n.toNat } := { hheld with }
  obtain ⟨hevent, hwoken⟩ := hfetched.completed
  have hreturn := hwoken.resume_write (by simp [completed])
  have hagain := exec_beginTransfer (d := .write) (len := 1) (dev := dev) (host := host)
    (s := (freeBuffer .write (consumeSignal .write (some s.caller) (completed .write
      ({ t1 with seenBytes := b.bytes 0 n.toNat }.setPending .wc true)))).returns s.caller .ok none)
    (by simp [completed, hcaller]) (by simp) rfl (by simp) (by decide) (by simp [completed, ha1, ha])
  refine ⟨t1, _, _, _, _, _, b, hexec, hheld.slot, hheld.buf, hoffered, hblen, hdev, hheld.blockedIn, hheld.waiter,
    deviceMove_fetch_offered hheld.buf hoffered (by omega), hbytes, rfl, hevent, completed_ready _ _, by simp [completed], hreturn,
    by simp, ?_, by simp, by simp, by simp, hagain, ?_⟩
  · simp [completed, hslot1, ← hslot]
  · simp [completed, hcaller]

end Sys2Proof.Machine
end

section
/-! Proofs for 60_exceptions.md: the errors that come before any step (R241 to R243, R248), the three reactions, their entry and their
order (R249 to R252, R254 to R257), what the exclusion of `atomic_d` blocks covers (R262, R263), and that an operation preempted and
resumed at once ends as if it had not been (R253). -/

namespace Sys2Proof.Machine

/-! ## Errors that come before any step (R241 to R243, R248) -/

/-- Settles O26: BEGIN_TRANSFER.d ends in its first step, whose tests are the slot, the length and the allocator, in this order. -/
theorem beginTransferErrors : Obligations.BeginTransferErrors := by
  intro d len s hi hlen
  have hexec : exec (.beginTransfer d len) s =
      beginOperation [.claim d (len.setWidth 32), .giveHandle d s.caller] (.const (.handle d)) s :=
    if_neg (by simp [lengthTooLong_false hlen])
  rw [hexec]
  refine ⟨fun hslot => (beginOperation_claim_raise hi).1 (by rcases hslot with h | h <;> simp [h]), fun hslot hfail => ?_⟩
  exact beginOperation_raise hi ((micro_free rfl).trans (claim_failed hslot (hfail.imp_left fun h => by rw [h]; rfl)))

/-- READ and WRITE of a length that is not positive raise InvalidArgument (R241). -/
theorem exec_bulk_of_nonpos {n : DWord} (hn : n.toInt ≤ 0) (s : State) :
    exec (.read n) s = raiseError .invalidArgument s ∧ exec (.write n) s = raiseError .invalidArgument s :=
  ⟨if_pos hn, if_pos hn⟩

/-- Settles O45: the test of the length comes before everything else that READ and WRITE do. -/
theorem bulkLengthMustBePositive : Obligations.BulkLengthMustBePositive := by
  intro n s hi hn
  obtain ⟨hread, hwrite⟩ := exec_bulk_of_nonpos hn s
  exact ⟨hread.trans (if_pos hi), hwrite.trans (if_pos hi)⟩

/-! ## The reactions as updates of the state (R250 to R252, R255, R256) -/

@[simp] theorem Csr.set_set (c : Csr) (r : SReg) (v w : Word) : (c.set r v).set r w = c.set r w := by cases r <;> rfl

/-- Writes of different registers may be made in either order. -/
theorem Csr.set_comm (c : Csr) {r r' : SReg} (v v' : Word) (h : r ≠ r') : (c.set r v).set r' v' = (c.set r' v').set r v := by
  refine Csr.ext_get _ _ fun x => ?_
  by_cases hx : x = r
  · subst hx; simp [h]
  · by_cases hx' : x = r'
    · subst hx'; simp [hx]
    · simp [hx, hx']

theorem PerDir.set_comm {α : Type} (p : PerDir α) {d d' : Dir} (x x' : α) (h : d ≠ d') :
    (p.set d x).set d' x' = (p.set d' x').set d x := by
  cases d <;> cases d'
  case read.write => rfl
  case write.read => rfl
  all_goals exact absurd rfl h

theorem PerLine.set_comm {α : Type} (p : PerLine α) {l l' : Line} (x x' : α) (h : l ≠ l') :
    (p.set l x).set l' x' = (p.set l' x').set l x := by
  refine PerLine.ext_get fun y => ?_
  by_cases hy : y = l
  · subst hy; simp [h]
  · by_cases hy' : y = l'
    · subst hy'; simp [hy]
    · simp [hy, hy']

/-- READY_d once an open block of `d` has made its write. -/
def settledReady (d : Dir) (s : State) : Word := ((s.opened.get d).map OpenBlock.word).getD (s.reg (readyReg d))

/-- A completion reaction writes one register and three flags of its direction. -/
theorem completed_eq (d : Dir) (s : State) :
    completed d s =
      { s with
        csr := s.csr.set (readyReg d) (clearReadyBit (settledReady d s))
        opened := s.opened.set d none
        pending := s.pending.set (completionLine d) false
        gate := s.gate.set d .signaled } := by
  cases ho : s.opened.get d with
  | none =>
    have hset : s.opened.set d none = s.opened := ho ▸ PerDir.set_get s.opened d
    rw [completed, closeOpen_none ho, hset, settledReady, ho]
    rfl
  | some o =>
    rw [completed, closeOpen_some ho, settledReady, ho]
    simp [updateReady, State.setReg, State.setOpened, State.setPending, State.setGate, State.reg]

/-- The reaction of one direction reads nothing that the reaction of the other writes. -/
theorem settledReady_completed_other {d d' : Dir} (s : State) (h : d ≠ d') :
    settledReady d (completed d' s) = settledReady d s := by
  simp [completed_eq d', settledReady, State.reg, h]

/-- The completion reactions of the two directions may be run in either order (R255). -/
theorem completed_comm {d d' : Dir} (s : State) (h : d ≠ d') : completed d (completed d' s) = completed d' (completed d s) := by
  have hline : completionLine d ≠ completionLine d' := mt (completionLine_inj d d').1 h
  have hreg : readyReg d ≠ readyReg d' := mt (readyReg_inj d d').1 h
  rw [completed_eq d (completed d' s), completed_eq d' (completed d s), settledReady_completed_other s h,
    settledReady_completed_other s h.symm, completed_eq d s, completed_eq d' s]
  simp only [Csr.set_comm _ _ _ hreg, PerDir.set_comm _ _ _ h, PerLine.set_comm _ _ _ hline]

/-- A completion event raised again is answered by nothing new (R256): every value its reaction writes stands already. -/
theorem completed_raised_again (d : Dir) (s : State) :
    completed d ((completed d s).setPending (completionLine d) true) = completed d s := by
  have hidem : ∀ v : Word, clearReadyBit (clearReadyBit v) = clearReadyBit v := fun v => by simp [clearReadyBit, BitVec.and_assoc]
  have hready : settledReady d ((completed d s).setPending (completionLine d) true) = clearReadyBit (settledReady d s) := by
    simp [settledReady, completed_eq, State.reg]
  rw [completed_eq, hready, completed_eq d s]
  simp [hidem]

/-- The state after the reaction of HD: the line acknowledged and both done flags 0 (R252). -/
def hostDone (s : State) : State :=
  ((s.setPending .hd false).setReg .readTransferDone doneClear).setReg .writeTransferDone doneClear

/-- A reaction is an event's entry and the steps of its rule (R249). -/
theorem exec_eventOf (l : Line) (s : State) : exec (eventOf l) s = dispatchEvent l (stepsOf (eventOf l) s) s := by cases l <;> rfl

/-- EV_HOST_DONE, not preempted, on a pending line with no reaction in progress (R252). -/
theorem exec_evHostDone_pending {s : State} (hp : s.pending.get .hd = true) (hh : s.handler.get .hd = none)
    (hq : s.quantum = none) : exec (eventOf .hd) s = .next (hostDone s) := by
  have hrun : runMicros 16 (newTask (stepsOf (eventOf .hd) s) (.const .ok)) s = .done .ok none (hostDone s) := by
    refine (runMicros_went (t := newTask [.write (.s .readTransferDone) doneClear, .write (.s .writeTransferDone) doneClear] _)
      (.inl rfl) (.ack .hd) (by simp [newTask])).trans ?_
    refine (runMicros_went (t := newTask [.write (.s .writeTransferDone) doneClear] _) (.inr (live_none rfl))
      (.write .readTransferDone doneClear) (by simp [newTask])).trans ?_
    exact runMicros_went_last (t := newTask [] _) (.inr (live_none rfl)) (.write .writeTransferDone doneClear) rfl
  rw [exec_eventOf, dispatchEvent_ready hh hp, runHandlerTask, turnLength_none hq, hrun]
  exact congrArg _ (State.setHandler_none_turnOver (s := hostDone s) hh hq)

/-- The two kinds of reactions may be run in either order (R255): they write different registers and lines. -/
theorem completed_hostDone_comm (d : Dir) (s : State) : completed d (hostDone s) = hostDone (completed d s) := by
  have hline : completionLine d ≠ .hd := by cases d <;> decide
  have hreg : readyReg d ≠ .readTransferDone ∧ readyReg d ≠ .writeTransferDone := by cases d <;> decide
  have hready : settledReady d (hostDone s) = settledReady d s := by simp [settledReady, hostDone, State.reg, hreg]
  rw [completed_eq, hready, completed_eq]
  simp [hostDone, State.setReg, State.setPending, PerLine.set_comm _ _ _ hline, Csr.set_comm _ _ _ hreg.1, Csr.set_comm _ _ _ hreg.2]

/-- The state after the whole reaction of a line (R250 to R252). -/
def reacted : Line → State → State
  | .rc => completed .read
  | .wc => completed .write
  | .hd => hostDone

@[simp] theorem reacted_pending (l : Line) (s : State) : (reacted l s).pending = s.pending.set l false := by
  cases l <;> simp [reacted, completed, hostDone, completionLine]

@[simp] theorem reacted_handler (l : Line) (s : State) : (reacted l s).handler = s.handler := by
  cases l <;> simp [reacted, completed, hostDone]

@[simp] theorem reacted_quantum (l : Line) (s : State) : (reacted l s).quantum = s.quantum := by
  cases l <;> simp [reacted, completed, hostDone]

/-- A dispatched event, not preempted, is the whole reaction of its line in one turn (R249 to R252). -/
theorem exec_eventOf_pending {l : Line} {s : State} (hp : s.pending.get l = true) (hh : s.handler.get l = none)
    (hq : s.quantum = none) : exec (eventOf l) s = .next (reacted l s) := by
  cases l with
  | rc => exact exec_completionOf_pending (d := .read) hp hh hq
  | wc => exact exec_completionOf_pending (d := .write) hp hh hq
  | hd => exact exec_evHostDone_pending hp hh hq

/-- The reactions of two lines may be run in either order (R255). -/
theorem reacted_comm {l l' : Line} (s : State) (h : l ≠ l') : reacted l (reacted l' s) = reacted l' (reacted l s) := by
  cases l <;> cases l'
  case rc.wc => exact completed_comm s (by decide)
  case wc.rc => exact completed_comm s (by decide)
  case rc.hd => exact completed_hostDone_comm .read s
  case wc.hd => exact completed_hostDone_comm .write s
  case hd.rc => exact (completed_hostDone_comm .read s).symm
  case hd.wc => exact (completed_hostDone_comm .write s).symm
  all_goals exact absurd rfl h

/-- Settles O38: the state `completed` of the reaction is the one stated. -/
theorem completionEvents : Obligations.CompletionEvents :=
  fun _ _ hp hh hq => ⟨exec_completionOf_pending hp hh hq, closeOpen_none, fun _ => closeOpen_some⟩

/-- Settles O39: the state `hostDone` of the reaction is the one stated. -/
theorem hostDoneEvent : Obligations.HostDoneEvent := fun _ => exec_evHostDone_pending

/-- Settles O41: each reaction leaves the other's line pending, and the two updates of the state commute. -/
theorem eventsInEitherOrder : Obligations.EventsInEitherOrder := by
  intro l l' s hne hp hp' hh hh' hq
  refine ⟨_, _, reacted l' (reacted l s), exec_eventOf_pending hp hh hq,
    exec_eventOf_pending (by simp [hne.symm, hp']) (by simp [hh']) (by simp [hq]), exec_eventOf_pending hp' hh' hq, ?_⟩
  rw [exec_eventOf_pending (by simp [hne, hp]) (by simp [hh]) (by simp [hq]), reacted_comm s hne]

/-- Settles O42: the second reaction finds the bit clear and the gate Signaled, so it changes nothing but the line it acknowledges. -/
theorem repeatedEventChangesNothing : Obligations.RepeatedEventChangesNothing := by
  intro d s hp hh hq
  refine ⟨_, _, exec_completionOf_pending hp hh hq, rfl, ?_⟩
  rw [exec_completionOf_pending (by simp) (by simpa [completed] using hh) (by simpa [completed] using hq), completed_raised_again]

/-! ## The entry of an event (R249, R254, R257) -/

/-- The steps of which the reactions are made (R250 to R252). -/
def ofReaction : Micro → Bool
  | .enter | .rmw _ _ | .write (.s _) _ | .ack _ | .signal _ => true
  | _ => false

theorem stepsOf_ofReaction (l : Line) (s : State) : ∀ m ∈ stepsOf (eventOf l) s, ofReaction m = true := by
  cases l <;> simp [eventOf, stepsOf, completionSteps, ofReaction]

/-- A step of a reaction goes on in every state: it neither waits nor is refused (R257). -/
theorem micro_ofReaction {m : Micro} {t : Task} (s : State) (hm : ofReaction m = true) (ht : t.holds = none) :
    ∃ s', micro m t s = .go t s' := by
  have hgo : ∀ {s'}, Went t s m t s' → ∃ s', micro m t s = .go t s' := fun h => ⟨_, went_micro (.inr (live_none ht)) h⟩
  cases m with
  | enter => exact hgo .enter
  | rmw d u => exact hgo (.rmw d u)
  | ack l => exact hgo (.ack l)
  | signal d => exact hgo (.signal d)
  | write r v =>
    cases r with
    | s r => exact hgo (.write r v)
    | _ => cases hm
  | _ => cases hm

/-- No turn over steps of a reaction is refused (R257). -/
theorem runMicros_ofReaction {n : Nat} {t : Task} {s : State} {r : Refusal} (ht : t.holds = none)
    (hsteps : ∀ m ∈ t.todo, ofReaction m = true) : runMicros n t s ≠ .refuse r := by
  induction n generalizing t s with
  | zero => nofun
  | succ n ih =>
    cases hto : t.todo with
    | nil => rw [runMicros_nil n t s hto]; nofun
    | cons m rest =>
      rw [hto, List.forall_mem_cons] at hsteps
      obtain ⟨s', hm⟩ := micro_ofReaction (t := { t with todo := rest }) s hsteps.1 ht
      by_cases hrest : rest = []
      · rw [runMicros_last hto hm hrest]; nofun
      · rw [runMicros_more hto hm hrest]; exact ih ht hsteps.2

/-- Settles O40: the entry's two tests, and a turn that no state refuses. -/
theorem eventEntry : Obligations.EventEntry := by
  intro l s
  rw [exec_eventOf]
  refine ⟨fun hh hp => ?_, fun hh => ?_, fun hh hp => ?_⟩
  · simp [dispatchEvent, hh, hp]
  · exact if_pos (Option.isSome_iff_ne_none.2 hh)
  · rw [dispatchEvent_ready hh hp, runHandlerTask]
    cases hrun : runMicros (turnLength s) (newTask (stepsOf (eventOf l) s) (.const .ok)) s with
    | refuse r => exact absurd hrun (runMicros_ofReaction rfl (stepsOf_ofReaction l s))
    | done r dst u => exact ⟨_, rfl⟩
    | paused t u => exact ⟨_, rfl⟩

/-! ## What the exclusion covers (R257, R262, R263) -/

/-- The block `u` of `d` that an agent opens where no other is open: its number and the word its write will store (R262, R263). -/
def blockOf (d : Dir) (u : ReadyUpdate) (forTransfer : Bool) (s : State) : OpenBlock :=
  { id := s.draws, word := applyReadyUpdate u (s.reg (readyReg d)), forTransfer := forTransfer }

/-- The task of an agent whose `atomic_d` block is open: the block's write comes next (R263). -/
def blockTask (d : Dir) (rest : List Micro) (tk : Task) (s : State) : Task := { tk with todo := .putReady d s.draws :: rest }

/-- The state in which caller `k` has made the read of its block and not yet the write (R263). -/
def blockOpened (d : Dir) (u : ReadyUpdate) (rest : List Micro) (tk : Task) (k : Nat) (s : State) : State :=
  (s.setOpened d (some (blockOf d u tk.holds.isSome s))).drawn.pauses k (blockTask d rest tk s)

@[simp] theorem blockOpened_opened (d : Dir) (u : ReadyUpdate) (rest : List Micro) (tk : Task) (k : Nat) (s : State) :
    (blockOpened d u rest tk k s).opened.get d = some (blockOf d u tk.holds.isSome s) :=
  PerDir.get_set_same ..

@[simp] theorem blockOpened_task (d : Dir) (u : ReadyUpdate) (rest : List Micro) (tk : Task) (k : Nat) (s : State) :
    ((blockOpened d u rest tk k s).callerOf k).task = some (blockTask d rest tk s) :=
  congrArg Caller.task (pauses_callerOf_same _ k (blockTask d rest tk s))

theorem blockOpened_callerOf_other {d : Dir} {u : ReadyUpdate} {rest : List Micro} {tk : Task} {j k : Nat} {s : State} (h : j ≠ k) :
    (blockOpened d u rest tk k s).callerOf j = s.callerOf j :=
  pauses_callerOf_other _ k j (blockTask d rest tk s) h

/-- A caller makes the read of its next `atomic_d` block alone, where no other block of `d` is open (R263). -/
theorem openBlock_caller {d : Dir} {u : ReadyUpdate} {rest : List Micro} {tk : Task} {k : Nat} {s : State}
    (htk : (s.callerOf k).task = some tk) (hlive : live tk s = true) (hto : tk.todo = .rmw d u :: rest)
    (ho : s.opened.get d = none) :
    openBlock (.caller k) s = .next (blockOpened d u rest tk k s) := by
  simp [openBlock, htk, openedTask, hlive, hto, closeOpen_none ho, blockOpened, blockTask, blockOf]

/-- The agent's next step writes the word of its open block, whatever READY_d holds by then (R263). -/
theorem resume_putReady {d : Dir} {o : OpenBlock} {rest : List Micro} {tk : Task} {k : Nat} {s : State}
    (htk : (s.callerOf k).task = some tk) (hlive : live tk s = true) (hto : tk.todo = .putReady d o.id :: rest)
    (ho : s.opened.get d = some o) :
    ∃ t, resume (.caller k) { s with quantum := some 0 } = .next t ∧ t.reg (readyReg d) = o.word ∧ t.opened.get d = none := by
  have hclose : closeBlock d o.id { s with quantum := some 0 } = closeOpen d { s with quantum := some 0 } := by
    simp [closeBlock, ho]
  have hgo := went_micro (t := { tk with todo := rest }) (s := { s with quantum := some 0 }) (.inr hlive) (.putReady d o.id)
  rw [hclose] at hgo
  have hword : (closeOpen d { s with quantum := some 0 }).reg (readyReg d) = o.word := by
    rw [closeOpen_reg_same, show ({ s with quantum := some 0 } : State).opened.get d = some o from ho]
    rfl
  rw [resume_caller (s := { s with quantum := some 0 }) htk, runCallerTask,
    show turnLength { s with quantum := some 0 } = 0 + 1 from rfl]
  by_cases hrest : rest = []
  · rw [runMicros_last hto hgo hrest]
    exact ⟨_, rfl, hword, by simp⟩
  · rw [runMicros_more hto hgo hrest]
    exact ⟨_, rfl, hword, by simp⟩

/-- A raw write of another caller to READY_d is carried out while a block of `d` is open, and the block's write overwrites it (R263). -/
theorem rawWrite_overwritten {d : Dir} {o : OpenBlock} {rest : List Micro} {tk : Task} {j k : Nat} {s : State} (x : Word)
    (htk : (s.callerOf k).task = some tk) (hlive : live tk s = true) (hto : tk.todo = .putReady d o.id :: rest)
    (ho : s.opened.get d = some o) (hjk : j ≠ k) (hj : s.idle j = true) :
    ∃ t u, exec (csrWr (.s (readyReg d)) x) { s with caller := j } = .next t ∧ t.reg (readyReg d) = x ∧
      resume (.caller k) { t with quantum := some 0 } = .next u ∧ u.reg (readyReg d) = o.word ∧ u.opened.get d = none := by
  obtain ⟨u, hu⟩ := resume_putReady (s := (State.setReg { s with caller := j } (readyReg d) x).returns j .ok none)
    (by rw [returns_callerOf_other _ _ _ _ _ hjk.symm]; exact htk) hlive hto ho
  exact ⟨_, u, exec_csrWr_of_ok (s := { s with caller := j }) hj rfl, State.setReg_reg_same .., hu⟩

/-- Settles O44: the raw write stores over the read, the block's own write stores over that, and another block closes it first. -/
theorem exclusionCoversBlocksOnly : Obligations.ExclusionCoversBlocksOnly := by
  intro d u rest tk k j x s htk hlive hto ho hjk hj
  have hidle : (blockOpened d u rest tk k s).idle j = true := by rwa [State.idle, blockOpened_callerOf_other hjk]
  obtain ⟨t2, t3, hraw⟩ := rawWrite_overwritten x (blockOpened_task d u rest tk k s) hlive rfl
    (blockOpened_opened d u rest tk k s) hjk hidle
  obtain ⟨hexec, hx, hresume, hword, hclosed⟩ := hraw
  refine ⟨_, t2, t3, openBlock_caller htk hlive hto ho, rfl, by simp, hexec, hx, hresume, hword, hclosed,
    fun u' tk' hlive' => ⟨_, went_micro (.inr hlive') (.rmw d u'), ?_, by simp⟩⟩
  rw [updateReady_reg_same, closeOpen_some (blockOpened_opened d u rest tk k s), State.setOpened_reg, State.setReg_reg_same]
  rfl

/-! ## A preempted operation (R253) -/

/-! ### A step reads none of the agents' records -/

/-- The state with the agents' records and the planned preemption changed, and nothing of the block. -/
def withRecords (cs : List (Nat × Caller) → List (Nat × Caller)) (hs : PerLine (Option Task) → PerLine (Option Task))
    (q : Option Nat) (s : State) : State :=
  { s with callers := cs s.callers, handler := hs s.handler, quantum := q }

/-- What a step gives, with its state changed by `f`. -/
def MicroOut.onState (f : State → State) : MicroOut → MicroOut
  | .go t s => .go t (f s)
  | .raise e s => .raise e (f s)
  | .hold => .hold
  | .refuse r => .refuse r

/-- What a turn gives, with its state changed by `f`. -/
def Turn.onState (f : State → State) : Turn → Turn
  | .done r dst s => .done r dst (f s)
  | .paused t s => .paused t (f s)
  | .refuse r => .refuse r

section
variable {cs : List (Nat × Caller) → List (Nat × Caller)} {hs : PerLine (Option Task) → PerLine (Option Task)} {q : Option Nat}

theorem closeOpen_withRecords (d : Dir) (s : State) :
    closeOpen d (withRecords cs hs q s) = withRecords cs hs q (closeOpen d s) := by
  cases ho : s.opened.get d with
  | none => rw [closeOpen_none ho, closeOpen_none (s := withRecords cs hs q s) ho]
  | some o => rw [closeOpen_some ho, closeOpen_some (s := withRecords cs hs q s) ho]; rfl

theorem loadPart_withRecords (loaded : List Byte) (n : Nat) (s : State) :
    loadPart loaded n (withRecords cs hs q s) = loadPart loaded n s := rfl

theorem readLength_withRecords (s : State) : readLength (withRecords cs hs q s) = readLength s := rfl

theorem memWrite_withRecords (d : Dir) (i : Nat) (bs : List Byte) (s : State) :
    memWrite (withRecords cs hs q s) d i bs = (memWrite s d i bs).map (withRecords cs hs q) := by
  have hbuf : (withRecords cs hs q s).buf = s.buf := rfl
  simp only [memWrite, hbuf]
  cases s.buf.get d with
  | none => rfl
  | some b => simp only [apply_ite (Except.map (withRecords cs hs q))]; rfl

theorem storePart_withRecords (i : Nat) (bs : List Byte) (s : State) :
    storePart i bs (withRecords cs hs q s) = (storePart i bs s).map (withRecords cs hs q) := by
  have hready : (withRecords cs hs q s).ready .write = s.ready .write := rfl
  have hdraws : (withRecords cs hs q s).draws = s.draws := rfl
  simp only [storePart, memWrite_withRecords, hready, hdraws]
  cases memWrite s .write i (if s.ready .write then raceBytes s.draws i bs.length else bs) <;> rfl

theorem regWrite_withRecords (r : Reg) (v : Word) (s : State) :
    regWrite r v (withRecords cs hs q s) = (regWrite r v s).map (withRecords cs hs q) := by
  rcases r with r | r | r
  · rfl
  · rfl
  · cases hl : ackLine r with
    | none => simp only [regWrite, hl]; rfl
    | some l => simp only [regWrite, hl, apply_ite (Except.map (withRecords cs hs q))]; rfl

theorem claim_withRecords (d : Dir) (len : Word) (t : Task) (s : State) :
    claim d len t (withRecords cs hs q s) = (claim d len t s).onState (withRecords cs hs q) := by
  have halloc : (withRecords cs hs q s).allocator = s.allocator := rfl
  simp only [claim, halloc, apply_ite (MicroOut.onState (withRecords cs hs q))]
  cases s.allocator <;> rfl

/-- A step of an operation does the same whatever the agents' records and the planned preemption are: only a session reset looks at
them (R282). -/
theorem act_withRecords {m : Micro} (hm : ofSessionReset m = false) (t : Task) (s : State) :
    act m t (withRecords cs hs q s) = (act m t s).onState (withRecords cs hs q) := by
  have push := apply_ite (MicroOut.onState (withRecords cs hs q))
  cases m with
  | read r => rcases r with r | r | r <;> rfl
  | write r v => simp only [act, regWrite_withRecords]; cases regWrite r v s <;> rfl
  | rmw d u => simp only [act, readyBlock, closeOpen_withRecords]; rfl
  | putReady d id => simp only [act, closeBlock, closeOpen_withRecords, MicroOut.onState, apply_ite (withRecords cs hs q)]; rfl
  | claim d len => exact claim_withRecords d len t s
  | giveHandle d k => simp only [act, giveHandle, push]; rfl
  | checkPublished d k => simp only [act, checkPublished, push]; rfl
  | awaitCompletion d => simp only [act, startAwaiting, push]; rfl
  | waitEnter d k => simp only [act, enterWait, push]; rfl
  | waitBlock d => simp only [act, blockOnGate, push]; rfl
  | copyIn n =>
    have hsource : (withRecords cs hs q s).source = s.source := rfl
    simp only [act, copyFromCaller, hsource]
    cases s.source <;> rfl
  | storeBytes i bs => simp only [act, storeRest, storePart_withRecords]; cases storePart i bs s <;> rfl
  | complete d k => cases d <;> simp only [act, completeTransfer, push] <;> rfl
  | loadBytes loaded =>
    simp only [act, loadRest, loadPart_withRecords, readLength_withRecords]
    cases loadPart loaded (readLength s - loaded.length) s <;> rfl
  | deliver data => simp only [act, copyToCaller, push]; rfl
  | release d => simp only [act, releaseSlot, push]; rfl
  | enter => rfl
  | unwait d => rfl
  | ack l => rfl
  | signal d => rfl
  | resetDirection d k => cases hm
  | resetReg r k => cases hm

theorem micro_withRecords {m : Micro} (hm : ofSessionReset m = false) (t : Task) (s : State) :
    micro m t (withRecords cs hs q s) = (micro m t s).onState (withRecords cs hs q) := by
  have hlive : live t (withRecords cs hs q s) = live t s := live_of_buf t rfl
  rw [micro, hlive, act_withRecords hm, micro, apply_ite (MicroOut.onState (withRecords cs hs q))]
  rfl

/-- A turn of an operation does the same whatever the agents' records and the planned preemption are. -/
theorem runMicros_withRecords {n : Nat} {t : Task} {s : State} (ht : ∀ m ∈ t.todo, ofSessionReset m = false) :
    runMicros n t (withRecords cs hs q s) = (runMicros n t s).onState (withRecords cs hs q) := by
  induction n generalizing t s with
  | zero => rfl
  | succ n ih =>
    cases hto : t.todo with
    | nil => rw [runMicros_nil n t _ hto, runMicros_nil n t _ hto]; rfl
    | cons m rest =>
      rw [hto, List.forall_mem_cons] at ht
      have hmicro := micro_withRecords (cs := cs) (hs := hs) (q := q) ht.1 { t with todo := rest } s
      cases hm : micro m { t with todo := rest } s with
      | raise e u => rw [hm] at hmicro; rw [runMicros_raise hto hmicro, runMicros_raise hto hm]; rfl
      | hold => rw [hm] at hmicro; rw [runMicros_hold hto hmicro, runMicros_hold hto hm]; rfl
      | refuse r => rw [hm] at hmicro; simp [runMicros, hto, hm, hmicro, MicroOut.onState, Turn.onState]
      | go t' u =>
        rw [hm] at hmicro
        by_cases he : t'.todo = []
        · rw [runMicros_last hto hmicro he, runMicros_last hto hm he]; rfl
        · rw [runMicros_more hto hmicro he, runMicros_more hto hm he]
          exact ih (micro_steps ofSessionReset_closed ht.1 ht.2 hm)

end

/-! ### A turn cut in two -/

/-- What a turn gives when its agent, if it stopped with steps left, goes on at once for at most `n` more steps. -/
def Turn.goOn (n : Nat) : Turn → Turn
  | .done r dst s => .done r dst s
  | .paused t s => runMicros n t s
  | .refuse r => .refuse r

/-- A turn cut after any number of its steps gives what the uncut one gives. -/
theorem runMicros_add (n m : Nat) (t : Task) (s : State) :
    runMicros (n + (m + 1)) t s = (runMicros n t s).goOn (m + 1) := by
  induction n generalizing t s with
  | zero => rw [Nat.zero_add]; rfl
  | succ n ih =>
    rw [Nat.add_right_comm]
    cases hto : t.todo with
    | nil => rw [runMicros_nil _ t s hto, runMicros_nil _ t s hto]; rfl
    | cons x rest =>
      cases hm : micro x { t with todo := rest } s with
      | raise e u => rw [runMicros_raise hto hm, runMicros_raise hto hm]; rfl
      | hold => rw [runMicros_hold hto hm, runMicros_hold hto hm]; exact (runMicros_hold hto hm).symm
      | refuse r => simp [runMicros, hto, hm, Turn.goOn]
      | go t' u =>
        by_cases he : t'.todo = []
        · rw [runMicros_last hto hm he, runMicros_last hto hm he]; rfl
        · rw [runMicros_more hto hm he, runMicros_more hto hm he]; exact ih t' u

/-- At most how many steps an operation makes for a step it has left, those that the step puts before the rest included. -/
def stepsFor : Micro → Nat
  | .claim _ _ => 3
  | .copyIn _ => 2
  | .complete _ _ => 4
  | .loadBytes _ => 2
  | _ => 1

/-- At most how many steps an operation makes with these steps left. -/
def stepsLeft (todo : List Micro) : Nat := (todo.map stepsFor).sum

/-- Every operation of the opcode table fits into one full turn. -/
theorem stepsOf_stepsLeft (i : Instr) (s : State) : stepsLeft (stepsOf i s) ≤ 15 := by
  cases i <;> exact Nat.le_of_ble_eq_true rfl

/-- Every step that goes on leaves fewer. -/
theorem went_stepsLeft {m : Micro} {t t' : Task} {s s' : State} (h : Went t s m t' s') :
    stepsLeft t'.todo < stepsFor m + stepsLeft t.todo := by
  cases h <;> simp [stepsLeft, stepsFor] <;> omega

/-- A turn of more steps than the operation has left goes to its end or to a hold, so that further steps make no difference. -/
theorem runMicros_enough {n : Nat} {t : Task} {s : State} (ht : stepsLeft t.todo ≤ n) (m : Nat) :
    runMicros (n + m + 1) t s = runMicros (n + 1) t s := by
  induction n generalizing t s with
  | zero =>
    cases hto : t.todo with
    | nil => rw [runMicros_nil _ t s hto, runMicros_nil _ t s hto]
    | cons x rest => cases x <;> simp [hto, stepsLeft, stepsFor] at ht
  | succ n ih =>
    rw [Nat.add_right_comm n 1 m]
    cases hto : t.todo with
    | nil => rw [runMicros_nil _ t s hto, runMicros_nil _ t s hto]
    | cons x rest =>
      cases hx : micro x { t with todo := rest } s with
      | raise e u => rw [runMicros_raise hto hx, runMicros_raise hto hx]
      | hold => rw [runMicros_hold hto hx, runMicros_hold hto hx]
      | refuse r => simp [runMicros, hto, hx]
      | go t' u =>
        by_cases he : t'.todo = []
        · rw [runMicros_last hto hx he, runMicros_last hto hx he]
        · have hless : stepsLeft t'.todo < stepsLeft t.todo := by rw [hto]; exact went_stepsLeft (micro_went hx).2
          rw [runMicros_more hto hx he, runMicros_more hto hx he]
          exact ih (by omega)

/-- A preempted operation that goes on at once for a full turn ends as its full turn does (R253). -/
theorem runMicros_goOn {n : Nat} {t : Task} {s : State} (ht : stepsLeft t.todo ≤ 15) :
    (runMicros n t s).goOn 16 = runMicros 16 t s := by
  rw [← runMicros_add n 15, Nat.add_comm n]
  exact (congrArg (runMicros · t s) (Nat.add_right_comm 15 1 n)).trans (runMicros_enough ht n)

/-- The steps a preempted operation has left are none of a session reset. -/
theorem runMicros_paused_steps {n : Nat} {t t' : Task} {s u : State} (ht : ∀ m ∈ t.todo, ofSessionReset m = false)
    (h : runMicros n t s = .paused t' u) : ∀ m ∈ t'.todo, ofSessionReset m = false := by
  refine (runMicros_induct (fun t _ => ∀ m ∈ t.todo, ofSessionReset m = false) (fun m rest t s t' s' hto hI hm => ?_) n t s ht).2
    t' u h
  rw [hto, List.forall_mem_cons] at hI
  exact micro_steps ofSessionReset_closed hI.1 hI.2 hm

/-! ### An agent that is preempted and resumed -/

/-- The end of an agent's turn. -/
def endTurn : Agent → Turn → Host.Outcome State Fault Refusal
  | .caller k => endCallerTurn k
  | .handler l => endHandlerTurn l

/-- An agent stops with steps left. -/
def stops (t : Task) (s : State) : Agent → State
  | .caller k => s.pauses k t
  | .handler l => (s.setHandler l (some t)).turnOver

theorem endTurn_paused (a : Agent) (t : Task) (s : State) : endTurn a (.paused t s) = .next (stops t s a) := by cases a <;> rfl

theorem endTurn_turnOver (a : Agent) (x : Turn) : endTurn a (x.onState State.turnOver) = endTurn a x := by
  cases a <;> cases x <;> rfl

/-- What a caller that stopped has recorded is overwritten where it stops again. -/
theorem pauses_pauses_last (s : State) (k : Nat) (t t' : Task) : (s.pauses k t).pauses k t' = s.pauses k t' := by
  rw [State.pauses, pauses_setCaller, pauses_callerOf_same]
  rfl

theorem pauses_returns (s : State) (k : Nat) (t : Task) (r : Result) (dst : Option (List Byte)) :
    (s.pauses k t).returns k r dst = s.returns k r dst := by
  rw [State.returns, pauses_setCaller, pauses_callerOf_same]
  rfl

/-- What an agent that stopped has recorded is overwritten at the end of its next turn. -/
theorem endTurn_stops (a : Agent) (t : Task) (x : Turn) : endTurn a (x.onState (stops t · a)) = endTurn a x := by
  cases a with
  | caller k =>
    cases x with
    | done r dst s => exact congrArg Host.Outcome.next (pauses_returns s k t r dst)
    | paused t' s => exact congrArg Host.Outcome.next (pauses_pauses_last s k t t')
    | refuse r => rfl
  | handler l => cases x <;> simp [endTurn, Turn.onState, stops, endHandlerTurn, State.setHandler, State.turnOver]

/-- An agent that stops changes records only. -/
theorem stops_eq_withRecords (t : Task) (a : Agent) : ∃ cs hs, (stops t · a) = withRecords cs hs none := by
  cases a with
  | caller k =>
    exact ⟨fun c => assocSet k { task := some t, result := none, dst := ((assocGet k c).getD Caller.fresh).dst } c, id, rfl⟩
  | handler l => exact ⟨id, fun p => p.set l (some t), rfl⟩

/-- An agent that stopped goes on for a full turn as if it had recorded nothing. -/
theorem resume_stops {t : Task} {s : State} (a : Agent) (ht : ∀ m ∈ t.todo, ofSessionReset m = false) :
    resume a (stops t s a) = endTurn a (runMicros 16 t s) := by
  have hresume : resume a (stops t s a) = endTurn a (runMicros 16 t (stops t s a)) := by
    cases a with
    | caller k => rw [stops, resume_caller (t := t) (by simp), runCallerTask, turnLength_none rfl]; rfl
    | handler l => rw [stops, resume_handler (t := t) (by simp), runHandlerTask, turnLength_none rfl]; rfl
  obtain ⟨cs, hs, hrec⟩ := stops_eq_withRecords t a
  rw [hresume, ← endTurn_stops a t (runMicros 16 t s), hrec, ← runMicros_withRecords ht, ← hrec]

/-- An agent whose operation has ended has nothing to go on with (log 25). -/
theorem resume_ended {a : Agent} {r : Result} {dst : Option (List Byte)} {s t : State}
    (h : endTurn a (.done r dst s) = .next t) : resume a t = .next t := by
  cases a with
  | caller k => cases h; rw [resume, returns_callerOf_same]; rfl
  | handler l => cases h; rw [resume, State.turnOver_handler, State.setHandler_handler, PerLine.get_set_same]; rfl

/-- An agent preempted after any number of steps and resumed at once ends as after a full turn (R253). -/
theorem resume_after_turn {a : Agent} {n : Nat} {tk : Task} {s t : State} (htk : ∀ m ∈ tk.todo, ofSessionReset m = false)
    (hsteps : stepsLeft tk.todo ≤ 15) (h : endTurn a (runMicros n tk s) = .next t) :
    resume a t = endTurn a (runMicros 16 tk s) := by
  rw [← runMicros_goOn (n := n) hsteps]
  cases hrun : runMicros n tk s with
  | refuse r => rw [hrun] at h; cases a <;> cases h
  | done r dst u => rw [hrun] at h; exact (resume_ended h).trans h.symm
  | paused tk' u =>
    rw [hrun, endTurn_paused] at h
    cases h
    exact resume_stops a (runMicros_paused_steps htk hrun)

/-- A full turn begun with no preemption planned. -/
theorem endTurn_unplanned {tk : Task} (a : Agent) (s : State) (htk : ∀ m ∈ tk.todo, ofSessionReset m = false) :
    endTurn a (runMicros (turnLength s.turnOver) tk s.turnOver) = endTurn a (runMicros 16 tk s) := by
  rw [turnLength_none rfl, ← endTurn_turnOver a (runMicros 16 tk s)]
  exact congrArg _ (runMicros_withRecords (cs := id) (hs := id) (q := none) htk)

/-! ### What exec runs, whatever preemption is planned -/

theorem agentOf_eventOf (l : Line) (s : State) : agentOf (eventOf l) s = .handler l := by cases l <;> rfl

/-- In `s`, with and without the planned preemption, exec runs one turn of the operation's agent over a task of the operation's steps:
the plan changes nothing but the length of the turn. -/
def RunsOneTurn (i : Instr) (s : State) : Prop :=
  ∃ tk, tk.todo = stepsOf i s ∧ exec i s = endTurn (agentOf i s) (runMicros (turnLength s) tk s) ∧
    exec i s.turnOver = endTurn (agentOf i s) (runMicros (turnLength s.turnOver) tk s.turnOver)

/-- An operation that an idle caller begins runs its steps (R8). -/
theorem runsOneTurn_of_beginOperation {i : Instr} {s t : State} {fin : Finish} (h : exec i s = .next t)
    (ha : agentOf i s = .caller s.caller) (he : exec i s = beginOperation (stepsOf i s) fin s)
    (he' : exec i s.turnOver = beginOperation (stepsOf i s) fin s.turnOver) : RunsOneTurn i s := by
  obtain ⟨hidle, _⟩ := beginOperation_next (he.symm.trans h)
  refine ⟨newTask (stepsOf i s) fin, rfl, ?_, ?_⟩
  · rw [ha, he, beginOperation_idle hidle]; rfl
  · rw [ha, he', beginOperation_idle (s := s.turnOver) hidle]; rfl

/-- A READ or WRITE of a positive length that answers a next state runs its steps (R230, R231). -/
theorem runsOneTurn_of_bulk {i : Instr} {n : DWord} {s t : State} (hi : i = .read n ∨ i = .write n) (hpos : 0 < n.toInt)
    (h : exec i s = .next t) : RunsOneTurn i s := by
  have hmax : n.toInt ≤ 4294967295 := not_lt.1 fun hlong => by
    obtain ⟨hread, hwrite⟩ := lengthAboveTheMaximumIsRefused.2.1 n s hlong
    rcases hi with rfl | rfl
    · rw [hread] at h; cases h
    · rw [hwrite] at h; cases h
  rcases hi with rfl | rfl
  · exact runsOneTurn_of_beginOperation h rfl (exec_read_eq_beginOperation hpos hmax s)
      (exec_read_eq_beginOperation hpos hmax s.turnOver)
  · exact runsOneTurn_of_beginOperation h rfl (exec_write_eq_beginOperation hpos hmax s)
      (exec_write_eq_beginOperation hpos hmax s.turnOver)

/-- A reaction that is dispatched runs its steps (R249). -/
theorem runsOneTurn_of_event {l : Line} {s t : State} (h : exec (eventOf l) s = .next t) : RunsOneTurn (eventOf l) s := by
  obtain ⟨hh, hp, _⟩ := dispatchEvent_next ((exec_eventOf l s).symm.trans h)
  have hsteps : stepsOf (eventOf l) s.turnOver = stepsOf (eventOf l) s := by cases l <;> rfl
  refine ⟨newTask (stepsOf (eventOf l) s) (.const .ok), rfl, ?_, ?_⟩
  · rw [agentOf_eventOf, exec_eventOf, dispatchEvent_ready hh hp]; rfl
  · rw [agentOf_eventOf, exec_eventOf, dispatchEvent_ready (s := s.turnOver) hh hp, hsteps]; rfl

/-- ABORT.d, where its precondition holds, runs its steps (R174). -/
theorem runsOneTurn_of_abort {d : Dir} {s t : State} (h : exec (.abort d) s = .next t) : RunsOneTurn (.abort d) s := by
  have hmay : s.hasTimeout = true ∧ s.slot.get d = .awaitingCompletion ∧ s.waiter.get d = some s.caller ∧
      blockedIn s.caller d s = true := by
    simp only [exec, execAbort] at h
    split at h
    · next htimeout =>
      split at h
      · next hwaiting => exact ⟨htimeout, hwaiting⟩
      · cases h
    · cases h
  exact ⟨{ newTask (abortSteps d) (.const (.error .timeout)) with holds := transferOf d s }, rfl,
    (if_pos hmay.1).trans (if_pos hmay.2), (if_pos hmay.1).trans (if_pos hmay.2)⟩

/-- Every operation that answers a next state runs one turn, but for SIGNAL, and READ and WRITE of a length that is not positive. -/
theorem exec_runsOneTurn {i : Instr} {s t : State} (h : exec i s = .next t) (hsignal : ∀ d, i ≠ .signal d)
    (hbulk : ∀ n, i = .read n ∨ i = .write n → 0 < n.toInt) : RunsOneTurn i s := by
  cases i with
  | signal d => exact absurd rfl (hsignal d)
  | read n => exact runsOneTurn_of_bulk (.inl rfl) (hbulk n (.inl rfl)) h
  | write n => exact runsOneTurn_of_bulk (.inr rfl) (hbulk n (.inr rfl)) h
  | abort d => exact runsOneTurn_of_abort h
  | evReadComplete => exact runsOneTurn_of_event (l := .rc) h
  | evWriteComplete => exact runsOneTurn_of_event (l := .wc) h
  | evHostDone => exact runsOneTurn_of_event (l := .hd) h
  | beginTransfer d len =>
    by_cases hlong : lengthTooLong len = true
    · rw [show exec (.beginTransfer d len) s = .refused .lengthOutOfDomain from if_pos hlong] at h
      cases h
    · exact runsOneTurn_of_beginOperation h rfl (if_neg hlong) (if_neg hlong)
  | _ => exact runsOneTurn_of_beginOperation h rfl rfl rfl

/-- Settles O60: one turn cut in two is the uncut turn, since no step looks at what the cut records, and the full turn has room for
every operation. -/
theorem preemptionChangesNothing : Obligations.PreemptionChangesNothing := by
  intro i _ s t hsignal _ h
  change resume (agentOf i s) t = exec i s.turnOver
  by_cases hbulk : ∀ n, i = .read n ∨ i = .write n → 0 < n.toInt
  · obtain ⟨tk, hto, hexec, hunplanned⟩ := exec_runsOneTurn h hsignal hbulk
    have htk : ∀ m ∈ tk.todo, ofSessionReset m = false := hto ▸ stepsOf_ofSessionReset i s
    rw [hunplanned, endTurn_unplanned _ _ htk]
    exact resume_after_turn htk (hto ▸ stepsOf_stepsLeft i s) (hexec.symm.trans h)
  · push Not at hbulk
    obtain ⟨n, hi, hn⟩ := hbulk
    have hraise : ∀ u, exec i u = raiseError .invalidArgument u := fun u => by
      rcases hi with rfl | rfl
      · exact (exec_bulk_of_nonpos hn u).1
      · exact (exec_bulk_of_nonpos hn u).2
    have ha : agentOf i s = .caller s.caller := by rcases hi with rfl | rfl <;> rfl
    obtain ⟨hidle, rfl⟩ := raiseError_next ((hraise s).symm.trans h)
    rw [ha, hraise, raiseError, if_pos (show s.turnOver.idle s.turnOver.caller = true from hidle)]
    exact resume_ended (a := .caller s.caller) (dst := none) rfl

end Sys2Proof.Machine
end

section
/-! Proofs for 70_reset_and_hazards.md: the state after RESET_ALL (R215, R281), the session reset (R282), and the updates of READY by
SET_d_OFFSET and the completion event in any order (R293). -/

namespace Sys2Proof.Machine

/-! ## RESET_ALL (R214, R215, R281) -/

/-- Writes of registers change the bank alone (R111). -/
theorem writeAll_eq (rs : List SReg) (v : Word) (s : State) : writeAll rs v s = { s with csr := (writeAll rs v s).csr } := by
  induction rs generalizing s with
  | nil => rfl
  | cons r rs ih => exact ih (s.setReg r v)

@[simp] theorem writeAll_caller (rs : List SReg) (v : Word) (s : State) : (writeAll rs v s).caller = s.caller := by
  rw [writeAll_eq]
@[simp] theorem writeAll_slot (rs : List SReg) (v : Word) (s : State) : (writeAll rs v s).slot = s.slot := by rw [writeAll_eq]
@[simp] theorem writeAll_buf (rs : List SReg) (v : Word) (s : State) : (writeAll rs v s).buf = s.buf := by rw [writeAll_eq]
@[simp] theorem writeAll_handle (rs : List SReg) (v : Word) (s : State) : (writeAll rs v s).handle = s.handle := by rw [writeAll_eq]
@[simp] theorem writeAll_gate (rs : List SReg) (v : Word) (s : State) : (writeAll rs v s).gate = s.gate := by rw [writeAll_eq]
@[simp] theorem writeAll_waiter (rs : List SReg) (v : Word) (s : State) : (writeAll rs v s).waiter = s.waiter := by rw [writeAll_eq]
@[simp] theorem writeAll_pending (rs : List SReg) (v : Word) (s : State) : (writeAll rs v s).pending = s.pending := by rw [writeAll_eq]
@[simp] theorem writeAll_callerOf (rs : List SReg) (v : Word) (s : State) (j : Nat) :
    (writeAll rs v s).callerOf j = s.callerOf j := by rw [writeAll_eq]; rfl

/-- RESET_ALL zeroes every class S register but the two ADDR registers (R214). -/
theorem mem_resetRegs (r : SReg) : r ∈ resetRegs ↔ ¬ (r = .readBufferAddr ∨ r = .writeBufferAddr) := by cases r <;> decide

/-- The register bank after the eight writes (R281). -/
theorem writeAll_resetRegs_reg (s : State) (r : SReg) :
    (writeAll resetRegs 0 s).reg r = if r = .readBufferAddr ∨ r = .writeBufferAddr then s.reg r else 0 := by
  simp only [writeAll_reg, mem_resetRegs, ite_not]

/-- The eight writes made again leave the bank as it is (R215). -/
theorem writeAll_resetRegs_again {s t : State} (h : t.csr = (writeAll resetRegs 0 s).csr) :
    (writeAll resetRegs 0 t).csr = t.csr := by
  refine Csr.ext_get _ _ fun r => ?_
  change (writeAll resetRegs 0 t).reg r = t.reg r
  have hr : t.reg r = (writeAll resetRegs 0 s).reg r := congrArg (Csr.get · r) h
  rw [writeAll_resetRegs_reg, hr, writeAll_resetRegs_reg]
  split <;> rfl

/-- Settles O22: the bank by the eight writes, the rest by the frames of RESET_ALL; the second one writes what stands there already. -/
theorem stateAfterResetAll : Obligations.StateAfterResetAll := by
  intro s hi hq
  have hfirst := exec_resetAll hi hq
  obtain ⟨hstatus, _⟩ := registerFrame _ _ _ hfirst
  obtain ⟨hslot, hbuf, _, _, hgate, hwaiter, hpending⟩ := controlStateFrame _ _ _ hfirst
  exact ⟨_, _, hfirst, writeAll_resetRegs_reg s, hstatus, PerLine.ext_get fun l => hpending l nofun, hslot rfl, (hbuf rfl).1,
    hgate rfl, hwaiter rfl, exec_resetAll (by simp) rfl, (returns_csr ..).trans (writeAll_resetRegs_again (returns_csr ..))⟩

/-! ## The session reset (R282; log 20) -/

/-- What a step of a session reset makes of the state, where it is carried out. -/
def afterResetStep : Micro → State → State
  | .resetDirection d _, s => resetDirection d s
  | .resetReg r _, s => s.setReg r 0
  | _, s => s

/-- Every step of a session reset does its update unless another session waits (R282, U19). -/
theorem micro_sessionResetStep {k : Nat} {m : Micro} (hm : m ∈ sessionResetSteps k) (t : Task) (s : State) :
    micro m t s = unlessForeignWait k s (.go t (afterResetStep m s)) := by
  have hstep : (∃ d, m = .resetDirection d k) ∨ ∃ r, m = .resetReg r k := by
    simp only [sessionResetSteps, List.mem_cons, List.mem_map] at hm
    rcases hm with rfl | rfl | ⟨r, _, rfl⟩
    · exact .inl ⟨_, rfl⟩
    · exact .inl ⟨_, rfl⟩
    · exact .inr ⟨r, rfl⟩
  rcases hstep with ⟨d, rfl⟩ | ⟨r, rfl⟩ <;> exact micro_free rfl

theorem foreignWait_eq_false (k : Nat) (d : Dir) (s : State) :
    foreignWait k d s = false ↔ ∀ j, s.waiter.get d = some j → sessionOf j = sessionOf k := by
  cases h : s.waiter.get d <;> simp [foreignWait, h]

theorem unlessForeignWait_of_free {k : Nat} {s : State} (h : ∀ d, foreignWait k d s = false) (out : MicroOut) :
    unlessForeignWait k s out = out := by
  simp [unlessForeignWait, h]

theorem unlessForeignWait_of_foreign {k : Nat} {d : Dir} {s : State} (h : foreignWait k d s = true) :
    ∃ d', ∀ out, unlessForeignWait k s out = .refuse (.foreignWaiter d') := by
  by_cases hread : foreignWait k .read s = true
  · exact ⟨.read, fun _ => if_pos hread⟩
  · cases d with
    | read => exact absurd h hread
    | write => exact ⟨.write, fun _ => (if_neg hread).trans (if_pos h)⟩

/-- A step of a session reset enters no WAIT. -/
theorem foreignWait_afterResetStep {k : Nat} {s : State} (h : ∀ d, foreignWait k d s = false) (m : Micro) (d : Dir) :
    foreignWait k d (afterResetStep m s) = false := by
  rw [foreignWait_eq_false]
  intro j hj
  refine (foreignWait_eq_false k d s).1 (h d) j ?_
  cases m with
  | resetDirection d' k' =>
    by_cases e : d = d'
    · subst e; simp [afterResetStep] at hj
    · simpa [afterResetStep, e] using hj
  | _ => exact hj

/-- A turn long enough makes all of a session reset's steps, where no other session waits, and ends it. -/
theorem runMicros_sessionReset {k n : Nat} {ms : List Micro} {fin : Finish} {s : State} (hn : ms.length ≤ n)
    (hms : ∀ m ∈ ms, m ∈ sessionResetSteps k) (hfree : ∀ d, foreignWait k d s = false) :
    runMicros (n + 1) (newTask ms fin) s = .done (makeResult fin []) none (ms.foldl (fun u m => afterResetStep m u) s) := by
  induction ms generalizing n s with
  | nil => exact runMicros_nil n _ s rfl
  | cons m rest ih =>
    rw [List.forall_mem_cons] at hms
    have hgo := (micro_sessionResetStep hms.1 (newTask rest fin) s).trans (unlessForeignWait_of_free hfree _)
    cases rest with
    | nil => exact runMicros_last (t := newTask [m] fin) (t' := newTask [] fin) rfl hgo rfl
    | cons m' rest =>
      obtain ⟨n, rfl⟩ : ∃ i, n = i + 1 := ⟨n - 1, by simp only [List.length_cons] at hn; omega⟩
      rw [runMicros_more rfl hgo (List.cons_ne_nil _ _)]
      exact ih (by simpa using hn) hms.2 (foreignWait_afterResetStep hfree m)

/-- The state after a session reset's steps: both directions reset, then RESET_ALL's registers zeroed (R282). -/
def sessionCleared (s : State) : State := writeAll resetRegs 0 (resetDirection .write (resetDirection .read s))

/-- The session reset by an idle caller, not preempted, where no other session waits (R282). -/
theorem sessionReset_free {k : Nat} {s : State} (hi : s.idle k = true) (hq : s.quantum = none)
    (hfree : ∀ d, foreignWait k d s = false) : sessionReset k s = .next ((sessionCleared s).returns k .ok none) := by
  rw [sessionReset, if_pos hi, runCallerTask, turnLength_none hq,
    runMicros_sessionReset (by simp [sessionResetSteps, resetRegs]) (fun _ h => h) hfree]
  rfl

/-- A refused step refuses the turn. -/
theorem runMicros_refuse {n : Nat} {t : Task} {s : State} {r : Refusal} {m : Micro} {rest : List Micro} (ht : t.todo = m :: rest)
    (hm : micro m { t with todo := rest } s = .refuse r) : runMicros (n + 1) t s = .refuse r := by
  simp [runMicros, ht, hm]

/-- The session reset while another session waits (R282, U19). -/
theorem sessionReset_foreign {k : Nat} {d : Dir} {s : State} (hi : s.idle k = true) (hwait : foreignWait k d s = true) :
    ∃ d', sessionReset k s = .refused (.foreignWaiter d') := by
  obtain ⟨d', hd'⟩ := unlessForeignWait_of_foreign hwait
  have hfirst : ∀ t, micro (.resetDirection .read k) t s = .refuse (.foreignWaiter d') := fun t =>
    (micro_sessionResetStep (.head _) t s).trans (hd' _)
  obtain ⟨n, hn⟩ := turnLength_pos s
  refine ⟨d', ?_⟩
  rw [sessionReset, if_pos hi, runCallerTask, hn, runMicros_refuse rfl (hfirst _)]
  rfl

/-! ### What the session reset leaves (R281, R282) -/

/-- Each direction after a session reset: Unallocated, its gate Pending, no waiter (R282). -/
theorem sessionCleared_flags (s : State) (d : Dir) :
    (sessionCleared s).slot.get d = .unallocated ∧ (sessionCleared s).gate.get d = .pending ∧
      (sessionCleared s).waiter.get d = none := by
  cases d <;> simp [sessionCleared]

/-- A transfer that was in flight: its buffer is freed and its handle live no more (R173, R282). -/
theorem sessionCleared_released {s : State} {d : Dir} (h : s.slot.get d ≠ .unallocated) :
    (sessionCleared s).buf.get d = none ∧ (sessionCleared s).handle.get d = none := by
  cases d with
  | read =>
    simp only [sessionCleared, writeAll_buf, writeAll_handle, resetDirection_buf, resetDirection_handle, if_neg h]
    split <;> simp
  | write => simp [sessionCleared, resetDirection_buf, resetDirection_handle, h]

/-- The caller has no operation in progress and its last one returned nothing (log 20). -/
def leftNothing (s : State) (j : Nat) : Prop := (s.callerOf j).task = none ∧ (s.callerOf j).result = none

/-- The caller blocked in WAIT.d leaves it when the session reset comes to direction `d` (R282; log 20). -/
theorem resetDirection_abandons {s : State} {d : Dir} {j : Nat} (hw : s.waiter.get d = some j) (hb : blockedIn j d s = true) :
    leftNothing (resetDirection d s) j := by
  rw [leftNothing, resetDirection_callerOf, if_pos ⟨hw, hb⟩]
  exact ⟨rfl, rfl⟩

/-- A caller's record is unchanged, or the caller has left its WAIT and returned nothing. -/
theorem resetDirection_callerOf_cases (s : State) (d : Dir) (j : Nat) :
    (resetDirection d s).callerOf j = s.callerOf j ∨ leftNothing (resetDirection d s) j := by
  by_cases h : s.waiter.get d = some j ∧ blockedIn j d s = true
  · exact .inr (resetDirection_abandons h.1 h.2)
  · exact .inl ((resetDirection_callerOf d s j).trans (if_neg h))

theorem leftNothing_resetDirection {s : State} {j : Nat} (h : leftNothing s j) (d : Dir) : leftNothing (resetDirection d s) j := by
  rcases resetDirection_callerOf_cases s d j with e | e
  · rwa [leftNothing, e]
  · exact e

/-- A caller that was blocked in either WAIT has left it after a session reset (R282; log 20). -/
theorem leftNothing_sessionCleared {s : State} {d : Dir} {j : Nat} (hw : s.waiter.get d = some j) (hb : blockedIn j d s = true) :
    leftNothing (sessionCleared s) j := by
  rw [leftNothing, sessionCleared, writeAll_callerOf]
  cases d with
  | read => exact leftNothing_resetDirection (resetDirection_abandons hw hb) .write
  | write =>
    rcases resetDirection_callerOf_cases s .read j with e | e
    · exact resetDirection_abandons (by simpa using hw) (blockedIn_of_callerOf hb e)
    · exact leftNothing_resetDirection e .write

/-- Settles O49: without a foreign WAIT the reset runs to its end, in the state `sessionCleared`; with one, every step is refused. -/
theorem sessionResetCleansBothDirections : Obligations.SessionResetCleansBothDirections := by
  refine ⟨fun k s hi hq hown => ?_, fun k j d s hw hj => ?_⟩
  · refine ⟨_, sessionReset_free hi hq fun d => (foreignWait_eq_false k d s).2 (hown d), fun d => ?_, fun r => ?_, ?_,
      fun d j hw hb => ?_⟩
    · obtain ⟨hslot, hgate, hwaiter⟩ := sessionCleared_flags s d
      simp only [returns_slot, returns_buf, returns_handle, returns_gate, returns_waiter]
      exact ⟨hslot, sessionCleared_released, hgate, hwaiter⟩
    · rw [returns_reg, sessionCleared, writeAll_resetRegs_reg, resetDirection_reg, resetDirection_reg]
    · simp only [returns_pending, sessionCleared, writeAll_pending, resetDirection_pending]
    · rw [returns_callerOf_other _ _ _ _ _ (ne_of_idle_of_blockedIn hi hb).symm]
      exact leftNothing_sessionCleared hw hb
  · have hforeign : foreignWait k d s = true := by simpa [foreignWait, hw] using hj
    refine ⟨fun hi => sessionReset_foreign hi hforeign, fun tk m hm => ?_⟩
    obtain ⟨d', hd'⟩ := unlessForeignWait_of_foreign hforeign
    exact ⟨d', (micro_sessionResetStep hm tk s).trans (hd' _)⟩

/-! ## SET_d_OFFSET and the completion event on one direction (R293) -/

/-- READY_d after both updates, in either order: the new high half-word, bits [15:1] kept, the ready bit 0 (R93, R216). -/
theorem clearReadyBit_putOffHi_eq_append (v : Word) (o : DWord) :
    clearReadyBit (putOffHi v (offsetHi o)) = (o.extractLsb' 16 16 ++ v.extractLsb' 0 16) &&& 0xFFFFFFFE#32 := by
  rw [putOffHi_eq_append]
  rfl

@[simp] theorem completed_opened (d : Dir) (s : State) : (completed d s).opened.get d = none := by simp [completed_eq]

theorem completed_reg_same {d : Dir} {s : State} (ho : s.opened.get d = none) :
    (completed d s).reg (readyReg d) = clearReadyBit (s.reg (readyReg d)) := by
  rw [completed, closeOpen_none ho, State.setGate_reg, State.setPending_reg, updateReady_reg_same, applyReadyUpdate_clearReady]

theorem completed_reg_other {d : Dir} {r : SReg} (s : State) (h : r ≠ readyReg d) : (completed d s).reg r = s.reg r := by
  rw [completed, State.setGate_reg, State.setPending_reg, updateReady_reg_other _ _ _ _ h, closeOpen_reg_other _ _ _ h]

theorem offsetSet_readyReg (d : Dir) (o : DWord) (s : State) :
    (offsetSet d o s).reg (readyReg d) = putOffHi (s.reg (readyReg d)) (offsetHi o) := by
  rw [offsetSet, updateReady_reg_same, applyReadyUpdate_putOffHi, State.setReg_reg_other _ _ _ _ (readyReg_ne_offsetReg d d)]

/-- What is left of SET_d_OFFSET once it has written OFFSET_d (R206, R207). -/
def offsetTask (d : Dir) (o : DWord) : Task := newTask [.rmw d (.putOffHi (offsetHi o))] (.const .ok)

/-- The state in which SET_d_OFFSET of caller `k` is preempted between its two parts (R206, R207, R293). -/
def offsetHalfSet (d : Dir) (o : DWord) (k : Nat) (s : State) : State :=
  (s.setReg (offsetReg d) ((offsetLo o).setWidth 32)).pauses k (offsetTask d o)

/-- SET_d_OFFSET of an idle caller, preempted after its first step (R253, R293). -/
theorem exec_setOffsetOf_preempted {d : Dir} {o : DWord} {s : State} (hi : s.idle s.caller = true) (hq : s.quantum = some 0) :
    exec (setOffsetOf d o) s = .next (offsetHalfSet d o s.caller s) := by
  have hlength : turnLength s = 0 + 1 := by rw [turnLength, hq]
  rw [exec_setOffsetOf, beginOperation_idle hi, runCallerTask, hlength]
  exact congrArg (endCallerTurn s.caller) (runMicros_went (t := offsetTask d o) (.inr (live_none rfl))
    (.write (offsetReg d) ((offsetLo o).setWidth 32)) (List.cons_ne_nil _ _))

/-- SET_d_OFFSET resumed for its second part, not preempted again (R206, R207). -/
theorem resume_offsetTask {d : Dir} {o : DWord} {k : Nat} {s : State} (htk : (s.callerOf k).task = some (offsetTask d o))
    (hq : s.quantum = none) (ho : s.opened.get d = none) :
    resume (.caller k) s = .next ((updateReady d (.putOffHi (offsetHi o)) s).returns k .ok none) := by
  have hlast := runMicros_went_last (n := 15) (t := newTask [] (.const .ok)) (s := s) (.inr (live_none rfl))
    (.rmw d (.putOffHi (offsetHi o))) rfl
  rw [closeOpen_none ho] at hlast
  rw [resume_caller htk, runCallerTask, turnLength_none hq]
  exact congrArg (endCallerTurn k) hlast

/-- The completion event between the two parts of SET_d_OFFSET leaves the caller where it was preempted (R253). -/
theorem completed_offsetHalfSet_task (d : Dir) (o : DWord) (k : Nat) (s : State) :
    ((completed d (offsetHalfSet d o k s)).callerOf k).task = some (offsetTask d o) := by
  simp [completed, offsetHalfSet]

/-- The two registers of the offset when the completion event comes between the two parts of SET_d_OFFSET: the block of the second
part reads READY_d after the event has written it (R262, R293). -/
theorem offsetRegs_of_eventBetween {d : Dir} {s : State} (o : DWord) (k : Nat) (ho : s.opened.get d = none) :
    (updateReady d (.putOffHi (offsetHi o)) (completed d (offsetHalfSet d o k s))).reg (readyReg d) =
        putOffHi (clearReadyBit (s.reg (readyReg d))) (offsetHi o) ∧
      (updateReady d (.putOffHi (offsetHi o)) (completed d (offsetHalfSet d o k s))).reg (offsetReg d) =
        (offsetLo o).setWidth 32 := by
  have hne : offsetReg d ≠ readyReg d := (readyReg_ne_offsetReg d d).symm
  constructor
  · rw [updateReady_reg_same, applyReadyUpdate_putOffHi, completed_reg_same (s := offsetHalfSet d o k s) ho, offsetHalfSet,
      pauses_reg, State.setReg_reg_other _ _ _ _ hne.symm]
  · rw [updateReady_reg_other _ _ _ _ hne, completed_reg_other _ hne, offsetHalfSet, pauses_reg, State.setReg_reg_same]

/-- Settles O43: each of the two updates of READY_d keeps what the other writes, so that any order ends with both. -/
theorem interleavedUpdatesLoseNoBit : Obligations.InterleavedUpdatesLoseNoBit := by
  intro d o s hi hp hh hq ho final
  have hfinal : clearReadyBit (putOffHi (s.reg (readyReg d)) (offsetHi o)) = final := clearReadyBit_putOffHi_eq_append _ o
  refine ⟨?offsetFirst, ?eventFirst, ?eventBetween⟩
  case offsetFirst =>
    refine ⟨_, _, exec_setOffsetOf_idle hi hq ho, exec_completionOf_pending hp hh rfl, ?_⟩
    rw [completed_reg_same (s := (offsetSet d o s).returns s.caller .ok none) ho, returns_reg, offsetSet_readyReg, hfinal]
  case eventFirst =>
    refine ⟨_, _, exec_completionOf_pending hp hh hq, exec_setOffsetOf_idle (by simpa [completed, State.idle] using hi)
      (by simpa [completed] using hq) (completed_opened d s), ?_⟩
    rw [returns_reg, offsetSet_readyReg, completed_reg_same ho, putOffHi_clearReadyBit, hfinal]
  case eventBetween =>
    obtain ⟨hready, hoffset⟩ := offsetRegs_of_eventBetween (s := { s with quantum := some 0 }) o s.caller ho
    refine ⟨_, _, _, _, rfl, exec_setOffsetOf_preempted hi rfl, exec_completionOf_pending hp hh rfl,
      resume_offsetTask (d := d) (o := o) (completed_offsetHalfSet_task ..) ?_ (completed_opened ..), ?_, hoffset⟩
    · simp [completed, offsetHalfSet]
    · rw [returns_reg, hready, putOffHi_clearReadyBit]
      exact hfinal

end Sys2Proof.Machine
end
